-- ==== Sys2Proof/Word.lean ====
section
/-! DEFINITION. The words of the Lendor 6064: bytes, 16-bit fields, and the fixed tables (vectors) the blocks keep.

Bit vectors stand for what the manual sends or stores as bits (bytes of a frame, 16-bit fields, patterns);
counts and times are natural numbers. -/

namespace Sys2Proof

/-- One byte of a frame (00_scope.md, Conventions). -/
abbrev Byte := BitVec 8

/-- One 16-bit field: a grant number, a sequence number, a label, a limit in ms. -/
abbrev Word16 := BitVec 16

/-- Least significant byte of a 16-bit field. -/
def Word16.low (w : Word16) : Byte := w.setWidth 8

/-- Most significant byte of a 16-bit field. -/
def Word16.high (w : Word16) : Byte := (w >>> 8).setWidth 8

/-- A 16-bit field from its two bytes. -/
def Word16.ofBytes (lo hi : Byte) : Word16 := lo.setWidth 16 ||| (hi.setWidth 16 <<< 8)

/-- A count as one byte of a reply. -/
def byteOf (n : Nat) : Byte := BitVec.ofNat 8 n

/-- A yes/no field as one byte of a reply. -/
def byteOfBool (b : Bool) : Byte := if b then 1 else 0

end Sys2Proof
end

