-- ==== Sys2Proof/Config.lean ====
section
/-! DEFINITION. The part's size figures and fixed times, and the pin levels the model presumes at power-up.

The manual fixes every figure here (00_scope.md, "The part at a glance"; R2, R20, R25, R79, R117, R133, R161,
R177), so no field is free: the manual leaves no value of a command's result open. The four raw pin levels are
the model's own choice (log entry 1). -/

namespace Sys2Proof.Config

/-- Claim records shared by all ports (R20). -/
def poolSize : Nat := 192

/-- Frames one inbound queue holds (R167). -/
def inboundPlaces : Nat := 2

/-- Replies one reply buffer holds (R168). -/
def replyPlaces : Nat := 2

/-- Notices one FETCH reply carries at most (R137). -/
def fetchRecords : Nat := 6

/-- Claims one HOLDINGS reply carries at most (R51). -/
def holdingsEntries : Nat := 16

/-- Units of 10 µs in one millisecond (the time base, 00_scope.md "Unit"). -/
def unitsPerMs : Nat := 100

/-- Thousandths of a bit time at 115 200 bit/s in one unit of 10 µs (R161). -/
def momentsPerUnit : Nat := 1152

/-- Units of 10 µs in one step of the confirm filter time, 0.1 ms (R79). -/
def unitsPerFilterStep : Nat := 10

/-- The fixed filter time of the sever inputs, 1 ms, in units (R117). -/
def severFilterUnits : Nat := 100

/-- The length of a break, 10 ms, in units (R177). -/
def breakUnits : Nat := 1000

/-- Sever threshold after pin reset (R116, R159). -/
def resetThreshold : Nat := 3

/-- Recovery count after pin reset (R116, R159). -/
def resetRecovery : Nat := 2

/-- Confirm filter time after pin reset, in steps of 0.1 ms (R159). -/
def resetFilterTime : Nat := 10

/-- DESIGN CHOICE (log entry 1), unsafe: the raw level of every confirm input at power-up, low. -/
def powerUpConfirmHigh : Bool := false

/-- DESIGN CHOICE (log entry 1), unsafe: the raw level of every sever input at power-up, negated. -/
def powerUpSeverAsserted : Bool := false

end Sys2Proof.Config
end

