-- ==== Sys2Proof/Syntax.lean ====
section
/-! DEFINITION. The commands of the 6064: one constructor for each row of spec/opcode_table.json.

A request row is the event in which the owning block takes the request that stands in the named port's check
stage (R26, R169, R170); the request's fields are the body bytes of that frame (R183). An event row is one event
of a block, named by the port, resource, handle or input it is about. Log entry 2 says why the operands are these. -/

namespace Sys2Proof

/-- A port, 0 to 5. -/
abbrev Port := Fin 6
/-- A resource number, 0 to 63 (R1). -/
abbrev ResNo := Fin 64
/-- A request handle, 0 to 7 (R23). -/
abbrev Handle := Fin 8
/-- A confirm input, 0 to 15 (R6). -/
abbrev ConfNo := Fin 16
/-- A resource line output, 0 to 31 (R3). -/
abbrev LineNo := Fin 32

/-- The commands, in the order of the opcode table. -/
inductive Instr where
  /-- JOIN (R107): the Session Controller takes the JOIN in port `p`'s check stage. -/
  | join (p : Port)
  /-- LEAVE (R111). -/
  | leave (p : Port)
  /-- TOUCH (R110). -/
  | touch (p : Port)
  /-- SET_RATE (R175): taken by the port's own Port Interface. -/
  | setRate (p : Port)
  /-- CLAIM (R30). -/
  | claim (p : Port)
  /-- CANCEL (R42). -/
  | cancel (p : Port)
  /-- RELEASE (R58). -/
  | release (p : Port)
  /-- FETCH (R135). -/
  | fetch (p : Port)
  /-- SESSION_INFO (R124). -/
  | sessionInfo (p : Port)
  /-- RESOURCE_INFO (R17). -/
  | resourceInfo (p : Port)
  /-- HOLDINGS (R51). -/
  | holdings (p : Port)
  /-- PART_INFO (R158). -/
  | partInfo (p : Port)
  /-- DEFINE (R12). -/
  | define (p : Port)
  /-- UNDEFINE (R16). -/
  | undefine (p : Port)
  /-- SET_LIMITS (R154). -/
  | setLimits (p : Port)
  /-- SET_MODE (R146). -/
  | setMode (p : Port)
  /-- SET_SUPERVISOR (R153). -/
  | setSupervisor (p : Port)
  /-- FORCE_RELEASE (R68). -/
  | forceRelease (p : Port)
  /-- DISABLE (R70). -/
  | disable (p : Port)
  /-- CLEAR_FAULT (R97). -/
  | clearFault (p : Port)
  /-- SEVER (R122). -/
  | sever (p : Port)
  /-- RESTART (R156). -/
  | restart (p : Port)
  /-- FRAME_COMPLETE (R167): port `p` completes the oldest frame its receiver found good. -/
  | frameComplete (p : Port)
  /-- SILENCE_LIMIT (R165). -/
  | silenceLimit (p : Port)
  /-- TAKE_REQUEST (R168). -/
  | takeRequest (p : Port)
  /-- REPLY_SENT (R172). -/
  | replySent (p : Port)
  /-- BREAK (R178). -/
  | breakDetected (p : Port)
  /-- FRAME_REPORT (R103): the Session Controller takes port `p`'s oldest good-frame report. -/
  | frameReport (p : Port)
  /-- WINDOW_EXPIRY (R112). -/
  | windowExpiry (p : Port)
  /-- SEVER_INPUT_CHANGE (R117): the raw level of SEVn becomes asserted or negated. -/
  | severInputChange (p : Port) (asserted : Bool)
  /-- SEVER_INPUT_FILTERED (R118). -/
  | severInputFiltered (p : Port)
  /-- LIVE_AGAIN (R114): the Claim Table takes port `p`'s oldest "session is LIVE again" report. -/
  | liveAgain (p : Port)
  /-- OUTCOME_ACKNOWLEDGED (R24): the Claim Table takes an acknowledgement event for the port and handle. -/
  | outcomeAcknowledged (p : Port) (h : Handle)
  /-- NO_CLAIMS_REMAIN (R149). -/
  | noClaimsRemain
  /-- WAIT_EXPIRY (R46). -/
  | waitExpiry (p : Port) (h : Handle)
  /-- HOLD_EXPIRY (R61): of port `p`'s holding of resource `x`. -/
  | holdExpiry (p : Port) (x : ResNo)
  /-- GRACE_EXPIRY (R63): of port `p`'s holding of resource `x`. -/
  | graceExpiry (p : Port) (x : ResNo)
  /-- PHASE_TIMER_EXPIRY (R74). -/
  | phaseTimerExpiry (x : ResNo)
  /-- CONFIRM_INPUT_CHANGE (R78): the raw level of CONFn becomes high or low. -/
  | confirmInputChange (c : ConfNo) (high : Bool)
  /-- CONFIRM_FILTER_CHANGE (R78). -/
  | confirmFilterChange (c : ConfNo)
  /-- GUARD_ELAPSED (R83). -/
  | guardElapsed (x : ResNo)
  /-- RELEASE_SEEN (R88). -/
  | releaseSeen (x : ResNo)
  /-- VERIFY_TIMEOUT (R89). -/
  | verifyTimeout (x : ResNo)
  /-- ENGAGED_SEEN (R91). -/
  | engagedSeen (x : ResNo)
  /-- ENGAGE_TIMEOUT (R92). -/
  | engageTimeout (x : ResNo)
  /-- CONFIRMATION_LOST (R93). -/
  | confirmationLost (x : ResNo)
  /-- PIN_RESET (R54, R18, R99, R125, R127, R159, R180). -/
  | pinReset
  /-- CHARACTER_RECEIVED (R162): a good character of value `c` completes at its stop bit. -/
  | characterReceived (p : Port) (c : Byte)
  /-- FRAMING_ERROR (R160). -/
  | framingError (p : Port)
  /-- RECEIVE_LINE_CHANGE (R177, R160): RXDn passes to space or to mark; `startBit` says that the passage is
  still at space at the middle of the bit time, so that it is a start bit and no noise (R160). -/
  | receiveLineChange (p : Port) (space startBit : Bool)
  deriving DecidableEq, Repr

end Sys2Proof
end

