-- ==== Sys2Proof/Decode.lean ====
section
/-! DEFINITION. Words of the opcode table. No row of spec/opcode_table.json has bits ("n_rows_with_fixed": 0 in
spec/98_reader.md), so no word spells a command. The bytes of a request frame are read in
Sys2Proof/Machine/Frames.lean and Sys2Proof/Machine/Codes.lean (R162 to R164, R182, R183). -/

namespace Sys2Proof

/-- The command that a word of the opcode table spells: none, for the table gives no row any bits. -/
def decodeTableWord (_nbits _w : Nat) : Option Instr := none

end Sys2Proof
end

