-- ==== Sys2Proof/Machine/State.lean ====
section
/-! DEFINITION. The state of the 6064: every record, table, queue, timer, filter, mode and pin the manual gives it,
the internal events that one block has made and another has not yet taken, and the queue of commands.

Collections the manual derives from one another have one home here (log entry 3): the claim pool is the list of the
claim records in use in order of acceptance, from which the free count (R20), every wait queue (R9, R32) and every
assigned set (R9) are read; the Line Unit's copies of a definition (R74) are the definition; the attention outputs
(R141) and the line levels (R75) are functions of the state (Sys2Proof/Machine/Views.lean). -/

namespace Sys2Proof.Machine

/-- A moment or a duration in units of 10 µs, the part's time base. -/
abbrev Time := Nat

/-- A moment of the transmitter, in thousandths of a bit time at 115 200 bit/s, of which every bit time is a whole
number (R161, log entry 13). -/
abbrev Moment := Nat

/-! ## Claims and request slots (Chapter 2, Chapter 3) -/

/-- The mode of a claim (R21). -/
inductive ClaimMode where
  | exclusive
  | shared
  deriving DecidableEq, Repr

/-- The hold phase of a HELD claim with its timer (R55). -/
inductive HoldPhase where
  /-- NONE: the resource had no hold limit at the grant. -/
  | unlimited
  /-- TIMING: the hold timer runs to `ends`. -/
  | timing (ends : Time)
  /-- OVERTIME: the limit has passed and no yield has begun. -/
  | overtime
  /-- YIELDING: the grace timer runs to `ends`. -/
  | yielding (ends : Time)
  deriving DecidableEq, Repr

/-- The state of a claim with the fields present in it (R21). -/
inductive ClaimState where
  | waiting (h : Handle)
  | reserved (h : Handle)
  | held (grant : Word16) (phase : HoldPhase)
  deriving DecidableEq, Repr

/-- One claim record in use (R21). -/
structure Claim where
  owner : Port
  resource : ResNo
  mode : ClaimMode
  state : ClaimState
  deriving DecidableEq, Repr

/-- One item of a request (R23). -/
structure Item where
  resource : ResNo
  mode : ClaimMode
  deriving DecidableEq, Repr

/-- What a request slot keeps of its CLAIM while the request is open (R23). -/
structure Filing where
  incarnation : Byte
  items : List Item
  waitLimit : Word16
  deriving DecidableEq, Repr

/-- The outcome of a DONE slot (R23). -/
inductive SlotOutcome where
  | granted
  | expired
  | failed
  | withdrawn
  deriving DecidableEq, Repr

/-- A request slot (R23). -/
inductive Slot where
  | free
  /-- WAITING, with the wait timer's expiry time where the wait limit is not 0. -/
  | waiting (f : Filing) (timer : Option Time)
  /-- ASSEMBLING, with the resources of the items still pending; the other items are complete. -/
  | assembling (f : Filing) (pendingItems : List ResNo)
  | done (incarnation : Byte) (outcome : SlotOutcome)
  deriving DecidableEq, Repr

/-! ## Resources and the Line Unit (Chapter 1, Chapter 4) -/

/-- The fault reasons (R10). -/
inductive FaultReason where
  | engageTimeout
  | stuckEngaged
  | confirmLost
  | disabled
  deriving DecidableEq, Repr

/-- The states of a TOKEN resource; a FAULTED one can only carry DISABLED (R7, R10). -/
inductive TokenState where
  | vacant
  | occupied
  | faulted
  deriving DecidableEq, Repr

/-- The states of a LINE resource (R7), FAULTED with its reason (R10). -/
inductive LineState where
  | vacant
  | cooling
  | guard
  | verify
  | engage
  | held
  | faulted (reason : FaultReason)
  deriving DecidableEq, Repr

/-- The confirm fields of a LINE resource bound to a confirm input (R6). -/
structure ConfirmBinding where
  input : ConfNo
  engagedHigh : Bool
  timeout : Word16
  deriving DecidableEq, Repr

/-- The line fields of a definition (R3 to R6). -/
structure LineDef where
  firstLine : Byte
  width : Byte
  idle : Byte
  drive : Vector Byte 6
  guard : Word16
  confirm : Option ConfirmBinding
  deriving DecidableEq, Repr

/-- The phase of a LINE resource's phase record with its timer (R74). -/
inductive Phase where
  /-- NONE. -/
  | quiet
  | guard (ends : Time)
  | verify (ends : Time)
  | engage (ends : Time)
  | watch
  deriving DecidableEq, Repr

/-- The Line Unit's own fields of a phase record (R74): the applied pattern (`none` is IDLE) and the phase. -/
structure PhaseRecord where
  applied : Option Port
  phase : Phase
  deriving DecidableEq, Repr

/-- The part of a resource record that depends on its kind (R7). -/
inductive Kind where
  | token (shareable : Bool) (state : TokenState)
  | line (d : LineDef) (state : LineState) (lu : PhaseRecord)
  deriving DecidableEq, Repr

/-- A defined resource record (R1, R2, R8). -/
structure Resource where
  label : Word16
  holdLimit : Word16
  yieldGrace : Word16
  grantNumber : Word16
  kind : Kind
  deriving DecidableEq, Repr

/-- The reports of the Line Unit (R77). -/
inductive LineReportKind where
  | guardElapsed
  | releaseSeen
  | verifyTimeout
  | engagedSeen
  | engageTimeout
  | confirmationLost
  deriving DecidableEq, Repr

/-- A Line Unit report made and not yet taken (R77); `current` until an order for its resource is carried out. -/
structure LineReport where
  resource : ResNo
  kind : LineReportKind
  current : Bool
  deriving DecidableEq, Repr

/-- A filtered input: the raw level at the pin, when it last changed, and the filtered level (R78, R117). For a
confirm input `true` is high; for a sever input `true` is asserted. -/
structure InputFilter where
  raw : Bool
  changed : Time
  filtered : Bool
  deriving DecidableEq, Repr

/-! ## Sessions (Chapter 5) -/

/-- The reasons of a sever (R119). -/
inductive SeverReason where
  | keepalive
  | pin
  | lineBreak
  | supervisor
  | rejoin
  | restart
  deriving DecidableEq, Repr

/-- The sever report (R101, R121). -/
structure SeverReport where
  reason : SeverReason
  incarnation : Byte
  clientId : Word16
  holdings : Nat
  requests : Nat
  deriving DecidableEq, Repr

/-- The fields of a session record in LIVE and in LAPSED (R101). -/
structure OpenSession where
  clientId : Word16
  keepalive : Word16
  windowEnds : Time
  deriving DecidableEq, Repr

/-- The liveness fields of a LAPSED session (R101); in LIVE they are always clear and 0 and are not stored. -/
structure Lapse where
  frameSeen : Bool
  missCount : Nat
  streak : Nat
  deriving DecidableEq, Repr

/-- The state of a session with the fields present in it (R101). -/
inductive SessionState where
  | idle
  | live (o : OpenSession)
  | lapsed (o : OpenSession) (l : Lapse)
  | severed (r : SeverReport)
  deriving DecidableEq, Repr

/-- A session record (R101). -/
structure Session where
  incarnation : Byte
  state : SessionState
  deriving DecidableEq, Repr

/-- A "session is LIVE again" report made and not yet taken (R114). -/
structure LiveReport where
  port : Port
  incarnation : Byte
  deriving DecidableEq, Repr

/-! ## Notices (Chapter 6) and Supervision (Chapter 7) -/

/-- The device mode (R144). -/
inductive DeviceMode where
  | setup
  | service
  | quiesce
  deriving DecidableEq, Repr

/-- The reasons of a FAILED notice (R129). -/
inductive FailReason where
  | fault
  | disabled
  | supervisor
  deriving DecidableEq, Repr

/-- The reasons of a REVOKED notice (R129). -/
inductive RevokeReason where
  | overtime
  | supervisor
  | confirmLost
  | disabled
  deriving DecidableEq, Repr

/-- A notice: its kind with the body of the kind (R128, R129). -/
inductive Notice where
  | granted (h : Handle) (items : List (ResNo × Word16))
  | expired (h : Handle)
  | failed (h : Handle) (x : ResNo) (reason : FailReason)
  /-- WITHDRAWN, whose one reason is QUIESCE. -/
  | withdrawn (h : Handle)
  | yieldDue (x : ResNo) (grant grace : Word16)
  | revoked (x : ResNo) (grant : Word16) (reason : RevokeReason)
  | modeChanged (m : DeviceMode)
  deriving DecidableEq, Repr

/-- The key of a notice (R128). -/
inductive NoticeKey where
  | handle (h : Handle)
  | resource (x : ResNo)
  | mode
  deriving DecidableEq, Repr

/-- An entry of a notice queue (R127); its key is fixed by its notice (R128). -/
structure Entry where
  seq : Word16
  notice : Notice
  delivered : Bool
  deriving DecidableEq, Repr

/-- A notice queue, oldest entry first (R127). -/
structure NoticeQueue where
  entries : List Entry
  nextSeq : Word16
  incarnation : Byte
  deriving DecidableEq, Repr

/-- An acknowledgement event sent by the Notice Store and not yet taken by the Claim Table (R138). -/
structure AckEvent where
  port : Port
  handle : Handle
  incarnation : Byte
  deriving DecidableEq, Repr

/-! ## The Port Interface (Chapter 8) -/

/-- The four line rates (R161). -/
inductive Rate where
  | r115200
  | r230400
  | r460800
  | r921600
  deriving DecidableEq, Repr

/-- A request frame: its three header bytes and its body (R182). `stamp` numbers the good frames of the port, so
that a frame's report is known from a later one (the model's own field, log entry 6). -/
structure Frame where
  kind : Byte
  tag : Byte
  inc : Byte
  body : List Byte
  stamp : Nat
  deriving DecidableEq, Repr

/-- The receiver phase with the bytes gathered so far (R162, R163). -/
inductive RxPhase where
  | hunt
  | length
  /-- BODY: `count` bytes are to be gathered, `got` are. -/
  | body (count : Nat) (got : List Byte)
  /-- CRC: `got` are the counted bytes, `low` the first CRC byte where it has arrived. -/
  | crc (got : List Byte) (low : Option Byte)
  deriving DecidableEq, Repr

/-- The raw level of RXDn and the break detector (R177): at space, since when, and whether a break has been
reported for this space run. -/
inductive RxLine where
  | mark
  | space (since : Time) (reported : Bool)
  deriving DecidableEq, Repr

/-- A good-frame report made and not yet taken by the Session Controller (R103, R167). -/
structure FrameReport where
  stamp : Nat
  inc : Byte
  deriving DecidableEq, Repr

/-- A reply in the reply buffer: its frame, and whether its last stop bit applies the pending rate (R171, R176). -/
structure Reply where
  bytes : List Byte
  appliesRate : Bool
  deriving DecidableEq, Repr

/-- A character on the transmit line: its value, the rate current when it began, and the moment of its start bit (R160,
R172). -/
structure TxChar where
  value : Byte
  rate : Rate
  began : Moment
  deriving DecidableEq, Repr

/-- The entry of the reply cache (R173). -/
structure CacheEntry where
  kind : Byte
  tag : Byte
  inc : Byte
  reply : List Byte
  deriving DecidableEq, Repr

/-- One Port Interface (Chapter 8, the table of its state). -/
structure PortInterface where
  rate : Rate
  pendingRate : Option Rate
  rx : RxPhase
  /-- The silence timer's expiry time, where it runs (R165). -/
  silence : Option Time
  /-- The rate of the character being received, where one is (R160, R166). -/
  character : Option Rate
  line : RxLine
  /-- Frames found good and not yet completed (R163, R167). -/
  goodFrames : List Frame
  reports : List FrameReport
  inbound : List Frame
  checkStage : Option Frame
  replies : List Reply
  /-- The moment at which the transmitter begins the oldest reply, absent while the buffer is empty (R172). -/
  begins : Option Moment
  /-- The character that a break found on the line, which is sent to its stop bit (R178). -/
  lastChar : Option TxChar
  cache : Option CacheEntry
  /-- How many good frames the port has found since pin reset (the model's own field, log entry 6). -/
  frameCount : Nat
  deriving DecidableEq, Repr

/-! ## Faults, refusals and the state -/

/-- Reasons for which a command would stop the block: none. Every rule of the manual gives the part a next state,
whatever request it is sent, so no meaning ends in a fault. -/
inductive Fault where
  deriving DecidableEq, Repr

/-- Reasons for which a command is refused by the model (a refusal of the part is a reply, not one of these). -/
inductive Refusal where
  /-- Raised only by an arm of exec that has no meaning yet; safe. No arm raises it. -/
  | notModelled (mnemonic : String)
  deriving DecidableEq, Repr

/-- The state of the part. -/
structure State where
  /-- The time, in units of 10 µs (log entry 4). -/
  now : Time
  /-- The claim records in use, in order of acceptance (R20, R21, R32). -/
  claims : List Claim
  /-- The request slots of each port (R23). -/
  slots : Vector (Vector Slot 8) 6
  /-- The resource table (R1) with the phase records (R74). -/
  resources : Vector (Option Resource) 64
  /-- The confirm inputs and their filters (R78). -/
  confirmInputs : Vector InputFilter 16
  /-- The sever inputs and their filters (R117). -/
  severInputs : Vector InputFilter 6
  /-- The session records (R101). -/
  sessions : Vector Session 6
  /-- The notice queues (R127). -/
  queues : Vector NoticeQueue 6
  /-- The Port Interfaces (Chapter 8). -/
  ports : Vector PortInterface 6
  /-- The device mode (R144). -/
  mode : DeviceMode
  /-- The supervisor port (R152). -/
  supervisor : Port
  /-- The sever threshold (R116). -/
  threshold : Nat
  /-- The recovery count (R116). -/
  recovery : Nat
  /-- The confirm filter time, in steps of 0.1 ms (R79). -/
  filterTime : Nat
  /-- The port the Claim Table served last (R25). -/
  servedCT : Port
  /-- The port the Session Controller served last (R169). -/
  servedSC : Port
  /-- The port the Notice Store served last (R169). -/
  servedNS : Port
  /-- The port Supervision served last (R169). -/
  servedSV : Port
  /-- Line Unit reports not yet taken, oldest first (R77). -/
  lineReports : List LineReport
  /-- Acknowledgement events not yet taken, oldest first (R138). -/
  ackEvents : List AckEvent
  /-- "Session is LIVE again" reports not yet taken, oldest first (R114). -/
  liveReports : List LiveReport
  /-- "No claims remain" reports not yet taken, oldest first; each is true while it is current (R149). -/
  drainReports : List Bool
  /-- The commands waiting, first in, first out (the model's own field, log entry 5). -/
  pending : List Instr
  deriving DecidableEq, Repr

/-- A port interface right after reset, its receive line at `line` (R180). -/
def PortInterface.reset (line : RxLine) : PortInterface :=
  { rate := .r115200, pendingRate := none, rx := .hunt, silence := none, character := none, line := line,
    goodFrames := [], reports := [], inbound := [], checkStage := none, replies := [], begins := none,
    lastChar := none, cache := none, frameCount := 0 }

/-- The state that a reset leaves at time `now`, given the input filters and receive lines as the pins stand at its
end (R18, R54, R80, R99, R117, R125, R127, R159, R169, R180). -/
def State.afterReset (now : Time) (confirm : Vector InputFilter 16) (sever : Vector InputFilter 6)
    (lines : Vector RxLine 6) (pending : List Instr) : State :=
  { now := now
    claims := []
    slots := Vector.replicate 6 (Vector.replicate 8 .free)
    resources := Vector.replicate 64 none
    confirmInputs := confirm
    severInputs := sever
    sessions := Vector.replicate 6 { incarnation := 0, state := .idle }
    queues := Vector.replicate 6 { entries := [], nextSeq := 1, incarnation := 0 }
    ports := Vector.ofFn fun p => PortInterface.reset lines[p]
    mode := .setup
    supervisor := 0
    threshold := Config.resetThreshold
    recovery := Config.resetRecovery
    filterTime := Config.resetFilterTime
    servedCT := 5
    servedSC := 5
    servedNS := 5
    servedSV := 5
    lineReports := []
    ackEvents := []
    liveReports := []
    drainReports := []
    pending := pending }

/-- The machine right after its first pin reset. The receive lines idle at mark (00_scope.md, Signals); the raw
levels of the confirm and sever inputs are DESIGN CHOICE values (log entry 1), and the filtered levels equal them
(R80, R117). -/
def State.reset : State :=
  State.afterReset 0
    (Vector.replicate 16 { raw := Config.powerUpConfirmHigh, changed := 0, filtered := Config.powerUpConfirmHigh })
    (Vector.replicate 6 { raw := Config.powerUpSeverAsserted, changed := 0, filtered := Config.powerUpSeverAsserted })
    (Vector.replicate 6 .mark) []

end Sys2Proof.Machine
end

