-- ==== Sys2Proof/Machine/Codes.lean ====
section
/-! DEFINITION. The codes of Chapter 9: request kinds, their lengths and owners (R183), status codes (R184) and
coded fields (R186). -/

namespace Sys2Proof.Machine

/-- The request kinds (R183). -/
inductive RequestKind where
  | join | leave | touch | setRate
  | claim | cancel | release | fetch
  | sessionInfo | resourceInfo | holdings | partInfo
  | define | undefine | setLimits | setMode | setSupervisor
  | forceRelease | disable | clearFault | sever | restart
  deriving DecidableEq, Repr

/-- The blocks that own requests (00_scope.md, the table of owners; R183). -/
inductive Owner where
  | claimTable
  | sessionController
  | noticeStore
  | supervision
  | portInterface
  deriving DecidableEq, Repr

/-- The KIND byte of a request (R183). -/
def RequestKind.code : RequestKind → Byte
  | .join => 0x01
  | .leave => 0x02
  | .touch => 0x03
  | .setRate => 0x04
  | .claim => 0x10
  | .cancel => 0x11
  | .release => 0x12
  | .fetch => 0x13
  | .sessionInfo => 0x20
  | .resourceInfo => 0x21
  | .holdings => 0x22
  | .partInfo => 0x23
  | .define => 0x40
  | .undefine => 0x41
  | .setLimits => 0x42
  | .setMode => 0x43
  | .setSupervisor => 0x44
  | .forceRelease => 0x45
  | .disable => 0x46
  | .clearFault => 0x47
  | .sever => 0x48
  | .restart => 0x49

/-- Every request kind, in the order of R183. -/
def RequestKind.all : List RequestKind :=
  [.join, .leave, .touch, .setRate, .claim, .cancel, .release, .fetch, .sessionInfo, .resourceInfo, .holdings,
   .partInfo, .define, .undefine, .setLimits, .setMode, .setSupervisor, .forceRelease, .disable, .clearFault,
   .sever, .restart]

/-- The kind a KIND byte names, where it names one (R183). -/
def RequestKind.ofCode (b : Byte) : Option RequestKind := RequestKind.all.find? fun k => k.code == b

/-- The values of LENGTH that the length check accepts for a kind (R183). -/
def RequestKind.lengths : RequestKind → List Nat
  | .join => [7]
  | .leave => [3]
  | .touch => [3]
  | .setRate => [4]
  | .claim => [9, 11, 13, 15]
  | .cancel => [4]
  | .release => [6]
  | .fetch => [6]
  | .sessionInfo => [3]
  | .resourceInfo => [4]
  | .holdings => [4]
  | .partInfo => [3]
  | .define => [12, 27]
  | .undefine => [4]
  | .setLimits => [6]
  | .setMode => [4]
  | .setSupervisor => [4]
  | .forceRelease => [4]
  | .disable => [4]
  | .clearFault => [4]
  | .sever => [4]
  | .restart => [3]

/-- The block that owns a kind (R183). -/
def RequestKind.owner : RequestKind → Owner
  | .join | .leave | .touch | .sessionInfo | .sever => .sessionController
  | .setRate => .portInterface
  | .fetch => .noticeStore
  | .partInfo | .setLimits | .setMode | .setSupervisor | .restart => .supervision
  | .claim | .cancel | .release | .resourceInfo | .holdings | .define | .undefine | .forceRelease | .disable
  | .clearFault => .claimTable

/-- The statuses (R184). -/
inductive Status where
  | ok | accepted | granted
  | unknownKind | badLength | badParameter
  | noSession | staleSession | sessionSevered | heldDown
  | notPermitted | wrongMode
  | undefinedResource | resourceFaulted | resourceBusy | lineConflict | confirmConflict
  | handleInUse | duplicate | revocationPending | noRoom | notWaiting | notHeld | staleGrant
  deriving DecidableEq, Repr

/-- The STATUS byte (R184). -/
def Status.code : Status → Byte
  | .ok => 0x00
  | .accepted => 0x01
  | .granted => 0x02
  | .unknownKind => 0x10
  | .badLength => 0x11
  | .badParameter => 0x12
  | .noSession => 0x20
  | .staleSession => 0x21
  | .sessionSevered => 0x22
  | .heldDown => 0x23
  | .notPermitted => 0x30
  | .wrongMode => 0x31
  | .undefinedResource => 0x40
  | .resourceFaulted => 0x41
  | .resourceBusy => 0x42
  | .lineConflict => 0x43
  | .confirmConflict => 0x44
  | .handleInUse => 0x50
  | .duplicate => 0x51
  | .revocationPending => 0x52
  | .noRoom => 0x53
  | .notWaiting => 0x54
  | .notHeld => 0x55
  | .staleGrant => 0x56

/-! Coded fields (R186). -/

def ClaimMode.code : ClaimMode → Byte
  | .exclusive => 0
  | .shared => 1

/-- The claim mode a byte names; any value but 0 and 1 names none (R186). -/
def ClaimMode.ofCode (b : Byte) : Option ClaimMode :=
  if b = 0 then some .exclusive else if b = 1 then some .shared else none

def DeviceMode.code : DeviceMode → Byte
  | .setup => 0
  | .service => 1
  | .quiesce => 2

/-- The device mode a byte names (R186, R146). -/
def DeviceMode.ofCode (b : Byte) : Option DeviceMode :=
  if b = 0 then some .setup else if b = 1 then some .service else if b = 2 then some .quiesce else none

def Rate.code : Rate → Byte
  | .r115200 => 0
  | .r230400 => 1
  | .r460800 => 2
  | .r921600 => 3

/-- The rate a rate code names (R161). -/
def Rate.ofCode (b : Byte) : Option Rate :=
  if b = 0 then some .r115200 else if b = 1 then some .r230400 else if b = 2 then some .r460800
  else if b = 3 then some .r921600 else none

/-- Key class and key value of a notice record (R186, R190). -/
def NoticeKey.codes : NoticeKey → Byte × Byte
  | .handle h => (0, byteOf h)
  | .resource x => (1, byteOf x)
  | .mode => (2, 0)

def Notice.kindCode : Notice → Byte
  | .granted _ _ => 1
  | .expired _ => 2
  | .failed _ _ _ => 3
  | .withdrawn _ => 4
  | .yieldDue _ _ _ => 5
  | .revoked _ _ _ => 6
  | .modeChanged _ => 7

def FailReason.code : FailReason → Byte
  | .fault => 0
  | .disabled => 1
  | .supervisor => 2

def RevokeReason.code : RevokeReason → Byte
  | .overtime => 0
  | .supervisor => 1
  | .confirmLost => 2
  | .disabled => 3

def FaultReason.code : FaultReason → Byte
  | .engageTimeout => 1
  | .stuckEngaged => 2
  | .confirmLost => 3
  | .disabled => 4

def SeverReason.code : SeverReason → Byte
  | .keepalive => 1
  | .pin => 2
  | .lineBreak => 3
  | .supervisor => 4
  | .rejoin => 5
  | .restart => 6

def TokenState.code : TokenState → Byte
  | .vacant => 0
  | .occupied => 1
  | .faulted => 7

/-- Fault reason of a TOKEN resource as RESOURCE_INFO codes it: 0 absent, or DISABLED (R10, R186). -/
def TokenState.faultCode : TokenState → Byte
  | .faulted => FaultReason.disabled.code
  | _ => 0

def LineState.code : LineState → Byte
  | .vacant => 0
  | .cooling => 2
  | .guard => 3
  | .verify => 4
  | .engage => 5
  | .held => 6
  | .faulted _ => 7

/-- Fault reason of a LINE resource as RESOURCE_INFO codes it: 0 absent (R186). -/
def LineState.faultCode : LineState → Byte
  | .faulted r => r.code
  | _ => 0

def ClaimState.code : ClaimState → Byte
  | .waiting _ => 0
  | .reserved _ => 1
  | .held _ _ => 2

def HoldPhase.code : HoldPhase → Byte
  | .unlimited => 0
  | .timing _ => 1
  | .overtime => 2
  | .yielding _ => 3

/-- Session state, in SUMMARY and SESSION_INFO (R185, R186). -/
def SessionState.code : SessionState → Byte
  | .idle => 0
  | .live _ => 1
  | .lapsed _ _ => 2
  | .severed _ => 3

def SlotOutcome.code : SlotOutcome → Byte
  | .granted => 0
  | .expired => 1
  | .failed => 2
  | .withdrawn => 3

/-- The two bytes of a slot entry of SESSION_INFO: the state, then the item count, the outcome, or 0 (R192). -/
def Slot.codes : Slot → List Byte
  | .free => [0, 0]
  | .waiting f _ => [1, byteOf f.items.length]
  | .assembling f _ => [2, byteOf f.items.length]
  | .done _ o => [3, o.code]

end Sys2Proof.Machine
end

