-- ==== Sys2Proof/Machine/Frames.lean ====
section
/-! DEFINITION. Frames: the CRC (R164), reply frames (R171, R182, R185), and the reading of request bodies (R183,
R187, R188). Multi-byte fields are sent least significant byte first. -/

namespace Sys2Proof.Machine

/-! ## CRC -/

/-- One data bit through the CRC register (R164). -/
def crcBit (reg : Word16) (bit : Bool) : Word16 :=
  if Bool.xor (reg.getLsbD 0) bit then (reg >>> 1) ^^^ 0xA001 else reg >>> 1

/-- One byte through the CRC register, least significant bit first (R164). -/
def crcByte (reg : Word16) (b : Byte) : Word16 :=
  [0, 1, 2, 3, 4, 5, 6, 7].foldl (fun r i => crcBit r (b.getLsbD i)) reg

/-- The CRC of a run of bytes (R164). -/
def crc (bytes : List Byte) : Word16 := bytes.foldl crcByte 0xFFFF

/-! ## Frames -/

/-- SYNC (R182). -/
def sync : Byte := 0x5A

/-- A 16-bit field as sent: least significant byte first. -/
def wordBytes (w : Word16) : List Byte := [Word16.low w, Word16.high w]

/-- A frame on the line: SYNC, LENGTH, the header and body bytes, and the CRC over LENGTH through the last body
byte, low byte first (R182, R164). -/
def lineFrame (content : List Byte) : List Byte :=
  let counted := byteOf content.length :: content
  sync :: counted ++ wordBytes (crc counted)

/-- A reply frame: the five header bytes KIND, TAG, INC, STATUS, SUMMARY, then the body (R171, R185). -/
def replyFrame (kind tag inc : Byte) (status : Status) (summary : Byte) (body : List Byte) : List Byte :=
  lineFrame (kind :: tag :: inc :: status.code :: summary :: body)

/-- A request frame as a host sends it: the three header bytes KIND, TAG, INC, then the body (R182). -/
def requestFrame (kind tag inc : Byte) (body : List Byte) : List Byte :=
  lineFrame (kind :: tag :: inc :: body)

/-- LENGTH of a request: its header and body bytes (R182). -/
def Frame.length (f : Frame) : Nat := f.body.length + 3

/-! ## Body fields -/

/-- Body byte at an offset. -/
def Frame.byte (f : Frame) (i : Nat) : Byte := f.body.getD i 0

/-- Body field of two bytes at an offset, least significant byte first. -/
def Frame.word (f : Frame) (i : Nat) : Word16 := Word16.ofBytes (f.byte i) (f.byte (i + 1))

/-- The resource a byte names, once it is checked to be at most 63. -/
def resOf (b : Byte) : ResNo := Fin.ofNat 64 b.toNat

/-- The port a byte names, once it is checked to be at most 5. -/
def portOf (b : Byte) : Port := Fin.ofNat 6 b.toNat

/-- The handle a byte names, once it is checked to be at most 7. -/
def handleOf (b : Byte) : Handle := Fin.ofNat 8 b.toNat

/-! ## Silence limit -/

/-- Four character times in units of 10 µs, rounded up: 347.2, 173.6, 86.8 and 43.4 µs (R161, R165, log entry 4). -/
def Rate.silenceUnits : Rate → Nat
  | .r115200 => 35
  | .r230400 => 18
  | .r460800 => 9
  | .r921600 => 5

end Sys2Proof.Machine
end

