-- ==== Sys2Proof/Machine/Transmitter.lean ====
section
/-! DEFINITION. The transmitter of a Port Interface (R160, R161, R171, R172, R178): when each character of a reply is
on the line, and the level of the line at every moment. -/

namespace Sys2Proof.Machine

/-! ## Moments -/

/-- The moment at which a time stands, in thousandths of a bit time at 115 200 bit/s: 10 µs are 1.152 bit times (R161). -/
def momentOf (t : Time) : Moment := t * Config.momentsPerUnit

/-- The first unit of 10 µs that is not before a moment. -/
def unitOf (m : Moment) : Time := (m + (Config.momentsPerUnit - 1)) / Config.momentsPerUnit

/-- The bit time of a rate: 115 200, 230 400, 460 800 and 921 600 bit/s (R161). -/
def Rate.bitMoments : Rate → Nat
  | .r115200 => 1000
  | .r230400 => 500
  | .r460800 => 250
  | .r921600 => 125

/-- One character time, 10 bits (R160, R161). -/
def Rate.charMoments (r : Rate) : Nat := 10 * r.bitMoments

/-! ## Characters on the line -/

/-- The end of the stop bit of a character (R160). -/
def TxChar.ends (c : TxChar) : Moment := c.began + c.rate.charMoments

/-- The line is at mark, `m` being a moment of the character: a start bit at space, eight data bits, least significant
first, 1 at mark, and a stop bit at mark (R160). -/
def TxChar.isMark (c : TxChar) (m : Moment) : Bool :=
  match (m - c.began) / c.rate.bitMoments with
  | 0 => false
  | n + 1 => if n < 8 then c.value.getLsbD n else true

/-- The moment from which the line is free: not before the stop bit of a last character has ended (R172, R178). -/
def PortInterface.lineFree (q : PortInterface) (m : Moment) : Moment :=
  max m ((q.lastChar.map TxChar.ends).getD 0)

/-- A reply joins the tail of the reply buffer; where it is the only one, the transmitter begins it as soon as the line
is free (R171, R172). -/
def PortInterface.addReply (q : PortInterface) (now : Time) (r : Reply) : PortInterface :=
  { q with replies := q.replies ++ [r], begins := some (q.begins.getD (q.lineFree (momentOf now))) }

/-- The end of the last stop bit of the oldest reply, whose characters go back to back (R172). The rate of them all is
the current one: it changes as a reply ends (R176) and at a break, which discards the replies (R178). -/
def PortInterface.replyEnds (q : PortInterface) : Option Moment :=
  match q.begins, q.replies with
  | some b, r :: _ => some (b + r.bytes.length * q.rate.charMoments)
  | _, _ => none

/-- The character of the oldest reply that is on the line at a moment (R172). -/
def PortInterface.replyChar (q : PortInterface) (m : Moment) : Option TxChar :=
  match q.begins, q.replies with
  | some b, r :: _ =>
    if b ≤ m then
      let i := (m - b) / q.rate.charMoments
      r.bytes[i]?.map fun v => { value := v, rate := q.rate, began := b + i * q.rate.charMoments }
    else none
  | _, _ => none

/-- The character on the line at a moment: the last one of a discarded reply until its stop bit has ended, and otherwise
that of the oldest reply (R172, R178). -/
def PortInterface.onLine (q : PortInterface) (m : Moment) : Option TxChar :=
  match q.lastChar.filter fun c => decide (c.began ≤ m ∧ m < c.ends) with
  | some c => some c
  | none => q.replyChar m

/-- TXDn is at mark at a moment: it is held there whenever no character is sent (R160). -/
def PortInterface.txMark (q : PortInterface) (m : Moment) : Bool :=
  match q.onLine m with
  | some c => c.isMark m
  | none => true

/-- The moment at which the oldest reply leaves, REPLY_SENT being taken at `now`: the end of its last stop bit, or `now`
where the event is taken later (R172, log entry 13). -/
def PortInterface.leavesAt (q : PortInterface) (now : Time) : Moment :=
  match q.replyEnds with
  | some e => if now ≤ unitOf e then e else momentOf now
  | none => momentOf now

end Sys2Proof.Machine
end

