-- ==== Sys2Proof/Machine/Views.lean ====
section
/-! DEFINITION. What the state shows: lookups by port, handle and resource, the wait queues and assigned sets
(R9), the free count (R20), the attention outputs (R141), the line levels (R75), the levels of TXDn (R160), SUMMARY
(R185) and the remaining times (R17, R124). -/

namespace Sys2Proof.Machine

/-! ## Claims -/

def ClaimState.isWaiting : ClaimState → Bool
  | .waiting _ => true
  | _ => false

/-- RESERVED or HELD: the claim stands in its resource's assigned set (R21). -/
def ClaimState.isAssigned : ClaimState → Bool
  | .waiting _ => false
  | _ => true

def ClaimState.isHeld : ClaimState → Bool
  | .held _ _ => true
  | _ => false

def ClaimState.isReserved : ClaimState → Bool
  | .reserved _ => true
  | _ => false

/-- OVERTIME (R55). -/
def ClaimState.isOvertime : ClaimState → Bool
  | .held _ .overtime => true
  | _ => false

/-- The handle of a WAITING or RESERVED claim (R21). -/
def ClaimState.handle : ClaimState → Option Handle
  | .waiting h => some h
  | .reserved h => some h
  | .held _ _ => none

/-- The grant number of a HELD claim (R21). -/
def ClaimState.grant : ClaimState → Option Word16
  | .held g _ => some g
  | _ => none

/-- The claim belongs to the open request of port `p` under handle `h`. -/
def Claim.ofRequest (p : Port) (h : Handle) (c : Claim) : Bool :=
  c.owner == p && c.state.handle == some h

/-- The wait queue of a resource, oldest first (R9, R32). -/
def State.waitQueue (s : State) (x : ResNo) : List Claim :=
  s.claims.filter fun c => c.resource == x && c.state.isWaiting

/-- The assigned set of a resource (R9). -/
def State.assigned (s : State) (x : ResNo) : List Claim :=
  s.claims.filter fun c => c.resource == x && c.state.isAssigned

/-- The claim of a port on a resource, of which a session has at most one (R22). -/
def State.claimOn (s : State) (p : Port) (x : ResNo) : Option Claim :=
  s.claims.find? fun c => c.owner == p && c.resource == x

/-- The free count (R20). -/
def State.freeCount (s : State) : Nat := Config.poolSize - s.claims.length

/-- The claim at the head of a resource's wait queue (R32). -/
def State.headClaim (s : State) (x : ResNo) : Option Claim := (s.waitQueue x).head?

/-- The HELD claims of a port. -/
def State.holdingsOf (s : State) (p : Port) : List Claim :=
  s.claims.filter fun c => c.owner == p && c.state.isHeld

/-! ## Tables -/

def State.session (s : State) (p : Port) : Session := s.sessions[p]
def State.queue (s : State) (p : Port) : NoticeQueue := s.queues[p]
def State.port (s : State) (p : Port) : PortInterface := s.ports[p]
def State.slot (s : State) (p : Port) (h : Handle) : Slot := s.slots[p][h]
def State.resource (s : State) (x : ResNo) : Option Resource := s.resources[x]

/-- LIVE (R101). -/
def SessionState.isLive : SessionState → Bool
  | .live _ => true
  | _ => false

/-- LIVE or LAPSED: a session is open (R101). -/
def SessionState.isOpen : SessionState → Bool
  | .live _ => true
  | .lapsed _ _ => true
  | _ => false

/-- The fields of an open session (R101). -/
def SessionState.opened : SessionState → Option OpenSession
  | .live o => some o
  | .lapsed o _ => some o
  | _ => none

def State.isLive (s : State) (p : Port) : Bool := (s.session p).state.isLive
def State.isOpen (s : State) (p : Port) : Bool := (s.session p).state.isOpen

/-- The incarnation kept in a port's record (R101, R105). -/
def State.incarnation (s : State) (p : Port) : Byte := (s.session p).incarnation

/-- The slot is WAITING or ASSEMBLING: it holds an open request (R121). -/
def Slot.isOpen : Slot → Bool
  | .waiting _ _ => true
  | .assembling _ _ => true
  | _ => false

/-- The items of a slot's open request (R23). -/
def Slot.items : Slot → List Item
  | .waiting f _ => f.items
  | .assembling f _ => f.items
  | _ => []

/-- How many of a port's slots hold an open request (R121). -/
def State.openRequests (s : State) (p : Port) : Nat :=
  (List.finRange 8).countP fun h => (s.slot p h).isOpen

/-! ## Resources -/

/-- The TOKEN or LINE resource is FAULTED (R7). -/
def Kind.isFaulted : Kind → Bool
  | .token _ .faulted => true
  | .line _ (.faulted _) _ => true
  | _ => false

/-- The resource is VACANT (R7). -/
def Kind.isVacant : Kind → Bool
  | .token _ .vacant => true
  | .line _ .vacant _ => true
  | _ => false

def Kind.isLine : Kind → Bool
  | .line _ _ _ => true
  | .token _ _ => false

/-- A TOKEN resource whose shareable field is yes (R2). -/
def Kind.isShareable : Kind → Bool
  | .token shareable _ => shareable
  | .line _ _ _ => false

/-- The line fields of a LINE resource. -/
def Kind.lineDef : Kind → Option LineDef
  | .line d _ _ => some d
  | .token _ _ => none

/-- The state lets an EXCLUSIVE claim be clear: any TOKEN state, LINE VACANT or COOLING (R33). -/
def Kind.takesExclusive : Kind → Bool
  | .token _ _ => true
  | .line _ .vacant _ => true
  | .line _ .cooling _ => true
  | .line _ _ _ => false

/-- The kind part of a defined resource. -/
def State.kindOf (s : State) (x : ResNo) : Option Kind := (s.resource x).map fun r => r.kind

/-- The yield grace of a defined resource (R2). -/
def State.graceOf (s : State) (x : ResNo) : Option Word16 := (s.resource x).map fun r => r.yieldGrace

/-- The line definition of a defined LINE resource. -/
def State.lineDef (s : State) (x : ResNo) : Option LineDef := (s.resource x).bind fun r => r.kind.lineDef

/-- The filtered level of a confirm input stands at the engaged level of a binding (R6, R78). -/
def State.engagedLevel (s : State) (b : ConfirmBinding) : Bool :=
  s.confirmInputs[b.input].filtered == b.engagedHigh

/-! ## Lines (R3, R75) -/

/-- The level of a resource line (R75). -/
inductive LineLevel where
  | low
  | high
  | highImpedance
  deriving DecidableEq, Repr

/-- The pattern that an applied pattern names (R74). -/
def LineDef.pattern (d : LineDef) : Option Port → Byte
  | none => d.idle
  | some k => d.drive[k]

/-- Line `n` lies in the group (R3). -/
def LineDef.covers (d : LineDef) (n : Nat) : Bool :=
  decide (d.firstLine.toNat ≤ n ∧ n < d.firstLine.toNat + d.width.toNat)

/-- The level a resource drives on line `n`, where its group covers it: bit 0 is the first line's (R3, R75). -/
def Resource.drives (r : Resource) (n : Nat) : Option LineLevel :=
  match r.kind with
  | .token _ _ => none
  | .line d _ lu =>
    if d.covers n then
      some (if (d.pattern lu.applied).getLsbD (n - d.firstLine.toNat) then .high else .low)
    else none

/-- The level of a line output: that of the group it lies in, high impedance where it lies in none (R3, R75). -/
def State.lineLevel (s : State) (n : LineNo) : LineLevel :=
  ((List.finRange 64).findSome? fun x => (s.resource x).bind fun r => r.drives n).getD .highImpedance

/-- The level of TXDn: the mark level is high at the pin (R160). -/
def State.txd (s : State) (p : Port) : LineLevel := if (s.port p).txMark (momentOf s.now) then .high else .low

/-! ## Notices -/

/-- The key of a notice (R128). -/
def Notice.key : Notice → NoticeKey
  | .granted h _ => .handle h
  | .expired h => .handle h
  | .failed h _ _ => .handle h
  | .withdrawn h => .handle h
  | .yieldDue x _ _ => .resource x
  | .revoked x _ _ => .resource x
  | .modeChanged _ => .mode

/-- A REVOKED notice for resource `x` (R139). -/
def Notice.revokes (x : ResNo) : Notice → Bool
  | .revoked y _ _ => y == x
  | _ => false

/-- The number of undelivered entries (R127). -/
def NoticeQueue.undelivered (q : NoticeQueue) : Nat := q.entries.countP fun e => !e.delivered

/-- The attention output ATTNn is asserted (R141). -/
def State.attention (s : State) (p : Port) : Bool := s.isOpen p && decide (0 < (s.queue p).undelivered)

/-- SUMMARY of a port: session state, supervisor, undelivered notices up to 31 (R185). -/
def State.summary (s : State) (p : Port) : Byte :=
  ((s.session p).state.code <<< 6) ||| (if s.supervisor = p then 0x20 else 0)
    ||| byteOf (min 31 (s.queue p).undelivered)

/-! ## Times -/

/-- Milliseconds in units of 10 µs. -/
def msUnits (ms : Word16) : Time := ms.toNat * Config.unitsPerMs

/-- The remaining guard RESOURCE_INFO reports: the time left on the phase timer of a resource in COOLING or GUARD
while the phase is GUARD, 0 otherwise (R17, R74). -/
def State.remainingGuard (s : State) (k : Kind) : Nat :=
  match k with
  | .line _ .cooling ⟨_, .guard ends⟩ => ends - s.now
  | .line _ .guard ⟨_, .guard ends⟩ => ends - s.now
  | _ => 0

/-- The remaining window SESSION_INFO reports, in ms rounded up (R124). -/
def State.remainingWindow (s : State) (o : OpenSession) : Nat :=
  (o.windowEnds - s.now + (Config.unitsPerMs - 1)) / Config.unitsPerMs

/-- The expiry time of a phase timer, where one runs (R74). -/
def Phase.ends : Phase → Option Time
  | .guard t => some t
  | .verify t => some t
  | .engage t => some t
  | _ => none

/-- When a filtered input takes its raw level, where the two differ (R78, R79, R117). -/
def InputFilter.due (f : InputFilter) (filter : Time) : Option Time :=
  if f.raw = f.filtered then none else some (f.changed + filter)

/-- The confirm filter time in units (R79). -/
def State.confirmFilterUnits (s : State) : Time := s.filterTime * Config.unitsPerFilterStep

end Sys2Proof.Machine
end

