-- ==== Sys2Proof/Machine/Ops.lean ====
section
/-! DEFINITION. The named operations over the state: table updates, the Line Unit's orders (R76), the adding of
notices (R130 to R132), and the removal of claims with the state each resource is left in (R44, R56, R95). -/

namespace Sys2Proof.Machine

/-! ## Table updates -/

def State.setSession (s : State) (p : Port) (v : Session) : State := { s with sessions := s.sessions.set p v }
def State.setQueue (s : State) (p : Port) (v : NoticeQueue) : State := { s with queues := s.queues.set p v }
def State.setPort (s : State) (p : Port) (v : PortInterface) : State := { s with ports := s.ports.set p v }
def State.setSlot (s : State) (p : Port) (h : Handle) (v : Slot) : State :=
  { s with slots := s.slots.set p (s.slots[p].set h v) }
def State.setResource (s : State) (x : ResNo) (v : Option Resource) : State :=
  { s with resources := s.resources.set x v }
def State.setConfirm (s : State) (c : ConfNo) (v : InputFilter) : State :=
  { s with confirmInputs := s.confirmInputs.set c v }
def State.setSever (s : State) (p : Port) (v : InputFilter) : State := { s with severInputs := s.severInputs.set p v }
def State.setClaims (s : State) (v : List Claim) : State := { s with claims := v }
def State.setLineReports (s : State) (v : List LineReport) : State := { s with lineReports := v }

/-- Time passes to the moment `t`, where that lies ahead (log entry 4). -/
def State.passTo (s : State) (t : Time) : State := { s with now := max s.now t }

/-- The record of a defined resource changed by `f`; an undefined one stays undefined. -/
def State.mapResource (s : State) (x : ResNo) (f : Resource → Resource) : State :=
  s.setResource x ((s.resource x).map f)

/-- The kind part of a resource record replaced. -/
def State.setKind (s : State) (x : ResNo) (k : Kind) : State := s.mapResource x fun r => { r with kind := k }

/-! ## Sets of resources (R36) -/

/-- A resource placed in a pending set; one already in it is not placed twice (R36). Ascending order. -/
def placeRes (x : ResNo) : List ResNo → List ResNo
  | [] => [x]
  | y :: ys => if x < y then x :: y :: ys else if x = y then y :: ys else y :: placeRes x ys

/-- Several resources placed in a pending set (R36). -/
def placeAll (xs set : List ResNo) : List ResNo := xs.foldr placeRes set

/-! ## Line Unit orders and reports (R76, R77) -/

/-- A report of the Line Unit is made (R77). -/
def State.report (s : State) (x : ResNo) (k : LineReportKind) : State :=
  s.setLineReports (s.lineReports ++ [{ resource := x, kind := k, current := true }])

/-- Every report about a resource that was made and not taken is current no longer (R77). -/
def State.staleReports (s : State) (x : ResNo) : State :=
  s.setLineReports (s.lineReports.map fun r => if r.resource = x then { r with current := false } else r)

/-- The phase record of a LINE resource changed by `f`; a TOKEN or undefined resource has none (R74). -/
def State.mapPhase (s : State) (x : ResNo) (f : LineDef → PhaseRecord → PhaseRecord) : State :=
  s.mapResource x fun r =>
    match r.kind with
    | .line d st lu => { r with kind := .line d st (f d lu) }
    | .token _ _ => r

/-- An order of the Claim Table for a resource is carried out: the phase record changes and earlier reports are
current no longer (R76, R77). -/
def State.order (s : State) (x : ResNo) (f : LineDef → PhaseRecord → PhaseRecord) : State :=
  (s.mapPhase x f).staleReports x

/-- Order "drive idle" (R76). -/
def State.driveIdle (s : State) (x : ResNo) : State := s.order x fun _ _ => { applied := none, phase := .quiet }

/-- Order "start guard" (R76). -/
def State.startGuard (s : State) (x : ResNo) : State :=
  s.order x fun d lu => { lu with phase := .guard (s.now + d.guard.toNat) }

/-- The expiry time of a confirm timeout started now (R6, R76). -/
def State.confirmEnds (s : State) (d : LineDef) : Time :=
  s.now + (match d.confirm with | some b => msUnits b.timeout | none => 0)

/-- Order "start verify" (R76, R86). -/
def State.startVerify (s : State) (x : ResNo) : State :=
  s.order x fun d lu => { lu with phase := .verify (s.confirmEnds d) }

/-- Order "drive pattern of port k" (R76). -/
def State.drivePattern (s : State) (x : ResNo) (k : Port) : State := s.order x fun _ lu => { lu with applied := some k }

/-- Order "start engage" (R76, R90): with no confirm input "engaged seen" is reported at once and the phase is
NONE; with one already at the engaged level it is reported at once and the phase is WATCH; otherwise the phase is
ENGAGE with the confirm timeout started. -/
def State.startEngage (s : State) (x : ResNo) : State :=
  match (s.lineDef x).map fun d => d.confirm with
  | none => s
  | some none => (s.order x fun _ lu => { lu with phase := .quiet }).report x .engagedSeen
  | some (some b) =>
    if s.engagedLevel b then (s.order x fun _ lu => { lu with phase := .watch }).report x .engagedSeen
    else s.order x fun d lu => { lu with phase := .engage (s.confirmEnds d) }

/-- The state of a LINE resource, its definition and phase record kept (R7). -/
def State.setLineState (s : State) (x : ResNo) (st : LineState) : State :=
  s.mapResource x fun r =>
    match r.kind with
    | .line d _ lu => { r with kind := .line d st lu }
    | .token _ _ => r

/-- A LINE resource enters COOLING out of a state with a drive pattern, or out of FAULTED: "drive idle" and "start
guard" (R56, R94, R95, R97, R100). -/
def State.cool (s : State) (x : ResNo) : State := ((s.driveIdle x).startGuard x).setLineState x .cooling

/-- The choice between release verification and engagement for port `k` (R85). -/
def State.engageOrVerify (s : State) (x : ResNo) (k : Port) : State :=
  match ((s.lineDef x).bind fun d => d.confirm).map s.engagedLevel with
  | some true => (s.startVerify x).setLineState x .verify
  | _ => ((s.drivePattern x k).startEngage x).setLineState x .engage

/-- A resource becomes FAULTED: a LINE resource's idle pattern is driven, any phase ends without report and no
guard is started (R96, R70). A TOKEN resource's reason can only be DISABLED (R10). -/
def State.faultResource (s : State) (x : ResNo) (reason : FaultReason) : State :=
  match s.kindOf x with
  | some (.line _ _ _) => (s.driveIdle x).setLineState x (.faulted reason)
  | some (.token sh _) => s.setKind x (.token sh .faulted)
  | none => s

/-! ## Notices (R130 to R132, R150) -/

/-- The number after a sequence number; 0 is never taken (R131). -/
def seqSucc (w : Word16) : Word16 := if w = 0xFFFF then 1 else w + 1

/-- The next sequence number: advanced until no entry of the queue carries it (R131). As many tries as there are
entries reach a free number. -/
def freeSeq (entries : List Entry) : Nat → Word16 → Word16
  | 0, w => w
  | n + 1, w => if entries.any (fun e => e.seq == w) then freeSeq entries n (seqSucc w) else w

/-- A notice added to a queue: an entry of the same key is removed, the new entry takes the next sequence number
and joins the tail undelivered, and the number is advanced (R130, R131, R132). -/
def NoticeQueue.add (q : NoticeQueue) (n : Notice) : NoticeQueue :=
  let entries :=
    (q.entries.filter fun e => e.notice.key != n.key) ++ [{ seq := q.nextSeq, notice := n, delivered := false }]
  { q with entries := entries, nextSeq := freeSeq entries entries.length (seqSucc q.nextSeq) }

/-- A notice ordered for a port: discarded where the session is IDLE or SEVERED (R130). -/
def State.notify (s : State) (p : Port) (n : Notice) : State :=
  if s.isOpen p then s.setQueue p ((s.queue p).add n) else s

/-- The MODE notice of a change of mode, to every LIVE or LAPSED session (R150). -/
def State.notifyMode (s : State) (m : DeviceMode) : State :=
  (List.finRange 6).foldl (fun s p => s.notify p (.modeChanged m)) s

/-! ## Removal of claims (R44, R56) -/

/-- The state a resource passes to when a claim has left its assigned set (R44, R56, R94, R95): a TOKEN resource
is VACANT when no assigned claim remains and OCCUPIED otherwise; a LINE resource goes from GUARD to COOLING with
its guard running on, from VERIFY to VACANT, and from ENGAGE and HELD to COOLING with a fresh guard. A FAULTED
resource stays FAULTED. -/
def State.settle (s : State) (x : ResNo) : State :=
  match s.kindOf x with
  | some (.token _ .faulted) => s
  | some (.token sh _) => s.setKind x (.token sh (if (s.assigned x).isEmpty then .vacant else .occupied))
  | some (.line _ .guard _) => s.setLineState x .cooling
  | some (.line _ .verify _) => (s.driveIdle x).setLineState x .vacant
  | some (.line _ .engage _) => s.cool x
  | some (.line _ .held _) => s.cool x
  | _ => s

/-- The claims that satisfy `sel` leave their wait queues and assigned sets and return to the free pool, their
timers with them, and each resource that lost an assigned claim is settled (R20, R44, R56). -/
def State.removeClaims (s : State) (sel : Claim → Bool) : State :=
  ((s.claims.filter fun c => sel c && c.state.isAssigned).map fun c => c.resource).foldl State.settle
    (s.setClaims (s.claims.filter fun c => !sel c))

/-- The resources that lose a claim when the claims satisfying `sel` are removed (R37). -/
def State.losers (s : State) (sel : Claim → Bool) : List ResNo := (s.claims.filter sel).map fun c => c.resource

/-- The claims satisfying `sel` that are HELD on `x` are revoked: removed, each with a REVOKED notice to its
holder's session (R64). -/
def State.revoke (s : State) (x : ResNo) (reason : RevokeReason) (sel : Claim → Bool) : State :=
  let hit := fun c : Claim => c.resource == x && c.state.isHeld && sel c
  (s.claims.filter hit).foldl
    (fun s c => s.notify c.owner (.revoked x (c.state.grant.getD 0) reason)) (s.removeClaims hit)

/-- The resources named by the items of a port's request (R48). -/
def State.itemResources (s : State) (p : Port) (h : Handle) : List ResNo :=
  (s.slot p h).items.map fun i => i.resource

/-- An open request ends with an outcome notice: its claims are removed, the notice is added and the slot becomes
DONE (R46, R48, R49). A slot that holds no open request is left as it is. -/
def State.endRequest (s : State) (p : Port) (h : Handle) (o : SlotOutcome) (n : Notice) : State :=
  match s.slot p h with
  | .waiting f _ => ((s.removeClaims (Claim.ofRequest p h)).notify p n).setSlot p h (.done f.incarnation o)
  | .assembling f _ => ((s.removeClaims (Claim.ofRequest p h)).notify p n).setSlot p h (.done f.incarnation o)
  | _ => s

/-- A request is failed with resource `x` and a reason (R48). The failing event gives `x` its state: FAULTED
beforehand, or the unwinding state. -/
def State.failRequest (s : State) (p : Port) (h : Handle) (x : ResNo) (reason : FailReason) : State :=
  s.endRequest p h .failed (.failed h x reason)

/-- The open requests, by port and handle, that have a claim satisfying `sel`. -/
def State.requestsWith (s : State) (sel : Claim → Bool) : List (Port × Handle) :=
  (s.claims.filter sel).filterMap fun c => c.state.handle.map fun h => (c.owner, h)

/-- Several requests are failed with resource `x` and a reason (R68, R70). -/
def State.failAll (s : State) (rs : List (Port × Handle)) (x : ResNo) (reason : FailReason) : State :=
  rs.foldl (fun s r => s.failRequest r.1 r.2 x reason) s

/-! ## Yielding (R62) -/

/-- The OVERTIME holdings of `x` that satisfy `sel` begin yielding: with a grace, each by a YIELD notice and a
grace timer; with grace 0 they are revoked for OVERTIME (R62). -/
def State.beginYield (s : State) (x : ResNo) (sel : Claim → Bool) : State :=
  let due := fun c : Claim => c.resource == x && c.state.isOvertime && sel c
  match s.graceOf x with
  | none => s
  | some grace =>
    if grace = 0 then s.revoke x .overtime due
    else
      (s.claims.filter due).foldl (fun s c => s.notify c.owner (.yieldDue x (c.state.grant.getD 0) grace))
        (s.setClaims (s.claims.map fun c =>
          if due c then { c with state := .held (c.state.grant.getD 0) (.yielding (s.now + msUnits grace)) } else c))

/-- The resources from which beginning to yield takes a claim: those with grace 0 and an OVERTIME holding (R30,
R37). -/
def State.yieldLosers (s : State) (x : ResNo) (sel : Claim → Bool) : List ResNo :=
  match s.graceOf x with
  | some grace =>
    if grace = 0 then s.losers fun c => c.resource == x && c.state.isOvertime && sel c else []
  | none => []

end Sys2Proof.Machine
end

