-- ==== Sys2Proof/Machine/Cascade.lean ====
section
/-! DEFINITION. Evaluation, reservation and grant (R33 to R40), the end of a Claim Table event (R50), and the
withdrawal at the entry to QUIESCE (R49). -/

namespace Sys2Proof.Machine

/-- The claim is clear (R33). -/
def State.clear (s : State) (c : Claim) : Bool :=
  decide (s.headClaim c.resource = some c)
    && (match s.kindOf c.resource with
        | none => false
        | some k =>
          !k.isFaulted
            && (match c.mode with
                | .exclusive => (s.assigned c.resource).isEmpty && k.takesExclusive
                | .shared => (s.assigned c.resource).all fun a => a.mode == .shared))
    && s.isLive c.owner
    && s.mode == .service

/-- The request of port `p` under handle `h` is ready: WAITING, with every one of its claims clear at once (R35). -/
def State.ready (s : State) (p : Port) (h : Handle) : Bool :=
  (match s.slot p h with | .waiting _ _ => true | _ => false)
    && s.claims.all fun c => !Claim.ofRequest p h c || s.clear c

/-- A HELD claim's hold phase at its grant, by the resource's hold limit (R40, R60). -/
def State.holdStart (s : State) (limit : Word16) : HoldPhase :=
  if limit = 0 then .unlimited else .timing (s.now + msUnits limit)

/-- The grant of one item: the resource's grant number advances, the RESERVED claim becomes HELD with it and loses its
handle, and a LINE resource goes from ENGAGE to HELD (R8, R40, R91). -/
def State.grantItem (s : State) (p : Port) (h : Handle) (x : ResNo) : State :=
  match s.resource x with
  | none => s
  | some r =>
    let g := r.grantNumber + 1
    let k := match r.kind with
      | .line d .engage lu => .line d .held lu
      | k => k
    (s.setResource x (some { r with grantNumber := g, kind := k })).setClaims
      (s.claims.map fun c =>
        if Claim.ofRequest p h c && c.state.isReserved && c.resource == x then
          { c with state := .held g (s.holdStart r.holdLimit) }
        else c)

/-- The grant numbers of resources as they stand, in order (R41, R189). -/
def State.grantNumbers (s : State) (xs : List ResNo) : List (ResNo × Word16) :=
  xs.filterMap fun x => (s.resource x).map fun r => (x, r.grantNumber)

/-- The grant of an ASSEMBLING request (R40). The request `immediate`, which is the one being accepted in this
event, gets no notice and leaves its slot FREE (R31); any other gets a GRANTED notice and becomes DONE. -/
def State.grant (immediate : Option (Port × Handle)) (s : State) (p : Port) (h : Handle) : State :=
  match s.slot p h with
  | .assembling f _ =>
    let xs := f.items.map fun i => i.resource
    let s1 := xs.foldl (fun s x => s.grantItem p h x) s
    if immediate = some (p, h) then s1.setSlot p h .free
    else (s1.notify p (.granted h (s1.grantNumbers xs))).setSlot p h (.done f.incarnation .granted)
  | _ => s

/-- The handover of one reserved item begins: a TOKEN resource becomes OCCUPIED; a LINE resource enters GUARD from
COOLING with its guard running on, and VERIFY or ENGAGE from VACANT (R38, R84, R85). -/
def State.beginItem (s : State) (p : Port) (x : ResNo) : State :=
  match s.kindOf x with
  | some (.token sh _) => s.setKind x (.token sh .occupied)
  | some (.line _ .cooling _) => s.setLineState x .guard
  | some (.line _ .vacant _) => s.engageOrVerify x p
  | _ => s

/-- The resource is a LINE resource, so its item is pending at the reservation (R38, R39). -/
def State.isLineRes (s : State) (x : ResNo) : Bool :=
  match s.kindOf x with
  | some k => k.isLine
  | none => false

/-- Reservation of a ready request (R38), with the grant where every item is complete (R40). -/
def State.reserve (immediate : Option (Port × Handle)) (s : State) (p : Port) (h : Handle) : State :=
  match s.slot p h with
  | .waiting f _ =>
    let xs := f.items.map fun i => i.resource
    let s1 := s.setClaims (s.claims.map fun c => if Claim.ofRequest p h c then { c with state := .reserved h } else c)
    let s2 := xs.foldl (fun s x => s.beginItem p x) s1
    let pendingItems := xs.filter s.isLineRes
    let s3 := s2.setSlot p h (.assembling f pendingItems)
    if pendingItems.isEmpty then s3.grant immediate p h else s3
  | _ => s

/-- The request that owns the head claim of a resource's wait queue (R36). -/
def State.headRequest (s : State) (x : ResNo) : Option (Port × Handle) :=
  (s.headClaim x).bind fun c => c.state.handle.map fun h => (c.owner, h)

/-- Evaluation over a pending set, lowest-numbered resource first (R36), with a bound on the number of
resources taken out. -/
def State.evaluateFor (immediate : Option (Port × Handle)) : Nat → List ResNo → State → State
  | 0, _, s => s
  | _ + 1, [], s => s
  | n + 1, x :: rest, s =>
    match s.headRequest x with
    | none => State.evaluateFor immediate n rest s
    | some (p, h) =>
      if s.ready p h then
        State.evaluateFor immediate n (placeAll (s.itemResources p h) rest) (s.reserve immediate p h)
      else State.evaluateFor immediate n rest s

/-- A bound that the cascade of R36 never reaches: each reservation takes a claim out of the wait queues, and
between two of them at most the 64 resources are taken out of the pending set. -/
def State.cascadeBound (s : State) : Nat := 64 * (s.claims.length + 1) + 1

/-- Evaluation of a set of resources within an event (R36, R37). -/
def State.evaluateWith (immediate : Option (Port × Handle)) (s : State) (xs : List ResNo) : State :=
  State.evaluateFor immediate s.cascadeBound (placeAll xs []) s

/-- Evaluation in an event that accepts no CLAIM. -/
def State.evaluate (s : State) (xs : List ResNo) : State := s.evaluateWith none xs

/-- The end of a Claim Table event: "no claims remain" is sent where the mode is QUIESCE and the free count is 192
(R50). -/
def State.endOfEvent (s : State) : State :=
  if s.mode = .quiesce ∧ s.freeCount = Config.poolSize then { s with drainReports := s.drainReports ++ [true] } else s

/-- Claims are removed and the resources that lost one are evaluated (R37). -/
def State.removeAndEvaluate (s : State) (sel : Claim → Bool) : State :=
  (s.removeClaims sel).evaluate (s.losers sel)

/-- Every WAITING request of every port is withdrawn, in ascending port order and within a port in ascending
handle order (R49). -/
def State.withdrawAll (s : State) : State :=
  (List.finRange 6).foldl (fun s p =>
    (List.finRange 8).foldl (fun s h =>
      match s.slot p h with
      | .waiting _ _ => s.endRequest p h .withdrawn (.withdrawn h)
      | _ => s) s) s

end Sys2Proof.Machine
end

