-- ==== Sys2Proof/Machine/SessionOps.lean ====
section
/-! DEFINITION. The opening and ending of sessions (R102, R107, R120), and what a good-frame report does to a
session (R103, R112, R113). -/

namespace Sys2Proof.Machine

/-- The incarnation after one: 255 is followed by 1, and 0 is never taken again (R102). -/
def incSucc (b : Byte) : Byte := if b = 0xFF then 1 else b + 1

/-- The state of a session record replaced, its incarnation kept (R102). -/
def State.setSessionState (s : State) (p : Port) (st : SessionState) : State :=
  s.setSession p { s.session p with state := st }

/-- A claim of port `p`. -/
def Claim.ofPort (p : Port) (c : Claim) : Bool := c.owner == p

/-- Every slot of a port becomes FREE (R52). -/
def State.freeSlots (s : State) (p : Port) : State := { s with slots := s.slots.set p (Vector.replicate 8 .free) }

/-- The queue of a port is cleared; its next sequence number and incarnation are kept (R142). -/
def State.clearQueue (s : State) (p : Port) : State := s.setQueue p { s.queue p with entries := [] }

/-- A port's reply cache is cleared and the frames of its inbound queue are discarded (R120). -/
def State.dropFrames (s : State) (p : Port) : State := s.setPort p { s.port p with cache := none, inbound := [] }

/-- The end of a session, which leaves the record in `st`: the reclaim of R52 with its evaluation, the clearing of
the queue and of the port (R111, R120), and the end of the Claim Table's event (R50). -/
def State.endSession (s : State) (p : Port) (st : SessionState) : State :=
  let closed := s.setSessionState p st
  let reclaimed := ((closed.removeClaims (Claim.ofPort p)).freeSlots p).evaluate (closed.losers (Claim.ofPort p))
  ((reclaimed.clearQueue p).dropFrames p).endOfEvent

/-- The sever report of port `p` for a session with the given fields (R121). -/
def State.severReport (s : State) (p : Port) (o : OpenSession) (reason : SeverReason) : SeverReport :=
  { reason := reason
    incarnation := s.incarnation p
    clientId := o.clientId
    holdings := (s.holdingsOf p).length
    requests := s.openRequests p }

/-- A sever of port `p` (R120); a cause that finds no open session leaves everything as it is (R119). -/
def State.severPort (s : State) (p : Port) (reason : SeverReason) : State :=
  match (s.session p).state.opened with
  | some o => s.endSession p (.severed (s.severReport p o reason))
  | none => s

/-- The opening of a session on a port without one (R107, steps 1 to 4, and the erasing of the sever report). -/
def State.openSession (s : State) (p : Port) (clientId keepalive : Word16) : State :=
  let inc := incSucc (s.incarnation p)
  ((s.setSession p
        { incarnation := inc
          state := .live { clientId := clientId, keepalive := keepalive, windowEnds := s.now + msUnits keepalive } }).setQueue
      p { entries := [], nextSeq := 1, incarnation := inc }).setPort p { s.port p with cache := none }

/-- The fields of an open session with the window timer started now for a full interval (R112 to R115). -/
def State.restartWindow (s : State) (o : OpenSession) : OpenSession :=
  { o with windowEnds := s.now + msUnits o.keepalive }

/-- The Session Controller takes a good-frame report of port `p` with the frame's INC byte: a valid frame restarts
a LIVE session's window and sets a LAPSED session's frame-seen flag (R103, R112, R113). -/
def State.seeFrame (s : State) (p : Port) (inc : Byte) : State :=
  if inc = s.incarnation p then
    match (s.session p).state with
    | .live o => s.setSessionState p (.live (s.restartWindow o))
    | .lapsed o l => s.setSessionState p (.lapsed o { l with frameSeen := true })
    | _ => s
  else s

/-- A LAPSED session becomes LIVE and the Claim Table is told (R114, R116). -/
def State.recover (s : State) (p : Port) (o : OpenSession) : State :=
  { s.setSessionState p (.live o) with
    liveReports := s.liveReports ++ [{ port := p, incarnation := s.incarnation p }] }

end Sys2Proof.Machine
end

