-- ==== Sys2Proof/Machine/Serve.lean ====
section
/-! DEFINITION. How an owning block takes a request from a port's check stage, answers it, and how the reply is
placed (R25, R26, R105, R169 to R171, R173, R191). -/

namespace Sys2Proof.Machine

/-- What the checks of an owning block come to: a refusal, which changes no state, or the execution with its
status, reply body and next state (R191). -/
inductive Verdict where
  | refused (status : Status)
  | executed (status : Status) (body : List Byte) (s : State)

/-- The first failing check decides (R191); a check is given with its failure. -/
def firstRefusal : List (Bool × Status) → Option Status
  | [] => none
  | (fails, status) :: rest => if fails then some status else firstRefusal rest

/-- A request that passes every check is executed; otherwise the first failing check refuses it (R191). -/
def Verdict.checked (checks : List (Bool × Status)) (go : Verdict) : Verdict :=
  match firstRefusal checks with
  | some st => .refused st
  | none => go

/-! ## Session and permission checks -/

/-- The session check of a request that needs an open session (R104, check 3). -/
def State.sessionChecks (s : State) (p : Port) (f : Frame) : List (Bool × Status) :=
  [((match (s.session p).state with | .idle => true | _ => false), .noSession),
   ((match (s.session p).state with | .severed _ => true | _ => false), .sessionSevered),
   (f.inc != s.incarnation p, .staleSession)]

/-- The session check of PART_INFO, which an IDLE port passes without its INC byte being compared (R104, R158). -/
def State.partInfoChecks (s : State) (p : Port) (f : Frame) : List (Bool × Status) :=
  [((match (s.session p).state with | .severed _ => true | _ => false), .sessionSevered),
   (s.isOpen p && f.inc != s.incarnation p, .staleSession)]

/-- The session and permission checks of a supervisor request (R152, checks 3 and 4). -/
def State.supervisorChecks (s : State) (p : Port) (f : Frame) : List (Bool × Status) :=
  s.sessionChecks p f ++ [(p != s.supervisor, .notPermitted)]

/-- The mode check of a request that is accepted in one mode only (R144, check 5). -/
def State.modeCheck (s : State) (m : DeviceMode) : Bool × Status := (s.mode != m, .wrongMode)

/-- The parameter and existence checks of a resource byte (R1, checks 6 and 7). -/
def State.resourceChecks (s : State) (b : Byte) : List (Bool × Status) :=
  [(decide (63 < b.toNat), .badParameter), ((s.resource (resOf b)).isNone, .undefinedResource)]

/-! ## Replies -/

/-- The body of a refusal: nothing, but for SESSION_SEVERED the sever reason (R104, R184). -/
def State.refusalBody (s : State) (p : Port) (status : Status) : List Byte :=
  match status, (s.session p).state with
  | .sessionSevered, .severed r => [r.reason.code]
  | _, _ => []

/-- A reply is placed at the tail of a port's reply buffer, built from the state as it stands at the end of the
event, and the check stage is empty again; an executed request replaces the cache entry (R105, R170, R171, R173,
R185). The reply of an executed SET_RATE applies the pending rate when it has gone (R176). -/
def State.place (s : State) (p : Port) (f : Frame) (status : Status) (body : List Byte) (executed : Bool) : State :=
  let bytes := replyFrame (f.kind + 0x80) f.tag (s.incarnation p) status (s.summary p) body
  s.setPort p
    { (s.port p).addReply s.now
        { bytes := bytes, appliesRate := executed && f.kind == RequestKind.setRate.code } with
      checkStage := none
      cache := if executed then some { kind := f.kind, tag := f.tag, inc := f.inc, reply := bytes } else (s.port p).cache }

/-- A refusal is answered (R171, R191). -/
def State.refuse (s : State) (p : Port) (f : Frame) (status : Status) : State :=
  s.place p f status (s.refusalBody p status) false

/-! ## The order of taking (R25, R169) -/

/-- The port a block served last. -/
def State.served (s : State) : Owner → Port
  | .claimTable => s.servedCT
  | .sessionController => s.servedSC
  | .noticeStore => s.servedNS
  | .supervision => s.servedSV
  | .portInterface => s.servedCT

/-- The port taken becomes the port served last (R25); the Port Interface keeps no such pointer. -/
def State.setServed (s : State) (o : Owner) (p : Port) : State :=
  match o with
  | .claimTable => { s with servedCT := p }
  | .sessionController => { s with servedSC := p }
  | .noticeStore => { s with servedNS := p }
  | .supervision => { s with servedSV := p }
  | .portInterface => s

/-- Port `p` offers a request to block `o` (R25, R169). -/
def State.offers (s : State) (o : Owner) (p : Port) : Bool :=
  match (s.port p).checkStage with
  | some f => (RequestKind.ofCode f.kind).map RequestKind.owner == some o
  | none => false

/-- The port `i + 1` places after `p`, from port 5 on to port 0 (R25). -/
def portAfter (p : Port) (i : Nat) : Port := Fin.ofNat 6 (p.val + 1 + i)

/-- The port whose request block `o` takes next: the first offering port after the port it served last (R25). -/
def State.nextServed (s : State) (o : Owner) : Option Port :=
  ((List.range 6).map (portAfter (s.served o))).find? fun p => s.offers o p

/-- Block `o` may take port `p`'s request now: it is next in the order of R25; a port's own Port Interface takes
its SET_RATE without that order (R175). -/
def State.mayTake (s : State) (o : Owner) (p : Port) : Bool :=
  match o with
  | .portInterface => true
  | o => s.nextServed o == some p

/-- The Session Controller takes the port's good-frame reports up to one frame's own (R124: a frame's report is taken
before its request; log entry 6). -/
def State.takeReports (s : State) (p : Port) (stamp : Nat) : State :=
  let due := (s.port p).reports.filter fun r => decide (r.stamp ≤ stamp)
  let seen := due.foldl (fun s r => s.seeFrame p r.inc) s
  seen.setPort p { seen.port p with reports := (s.port p).reports.filter fun r => decide (stamp < r.stamp) }

/-- The end of the event of a block: for the Claim Table, R50. -/
def State.endOfServe (s : State) (o : Owner) : State :=
  match o with
  | .claimTable => s.endOfEvent
  | _ => s

/-- The verdict on a request becomes the next state (R170, R191). -/
def State.answer (s : State) (o : Owner) (p : Port) (f : Frame) : Verdict → State
  | .refused status => (s.endOfServe o).refuse p f status
  | .executed status body t => (t.endOfServe o).place p f status body true

/-- The owning block takes a request of kind `k` from port `p`'s check stage, where one stands there and it is next
to be taken; otherwise nothing is there to take and nothing changes (log entry 7). -/
def State.serve (s : State) (k : RequestKind) (p : Port) (run : Frame → State → Verdict) : State :=
  match (s.port p).checkStage with
  | none => s
  | some f =>
    if f.kind = k.code ∧ s.mayTake k.owner p = true then
      ((s.takeReports p f.stamp).setServed k.owner p).answer k.owner p f
        (run f ((s.takeReports p f.stamp).setServed k.owner p))
    else s

end Sys2Proof.Machine
end

