-- ==== Sys2Proof/Machine/SessionRequests.lean ====
section
/-! DEFINITION. The requests of the Session Controller (Chapter 5): JOIN, LEAVE, TOUCH, SESSION_INFO, SEVER. -/

namespace Sys2Proof.Machine

/-- The reply body of an executed JOIN (R109, R192). -/
def State.joinBody (s : State) (p : Port) (report : Option SeverReport) (keepalive : Word16) : List Byte :=
  [s.incarnation p] ++ wordBytes keepalive ++ [byteOfBool (decide (s.supervisor = p))] ++
    (match report with
     | none => [0]
     | some r =>
       [r.reason.code, r.incarnation] ++ wordBytes r.clientId ++ [byteOf r.holdings, byteOf r.requests])

/-- The sever report of a SEVERED record (R121). -/
def SessionState.report : SessionState → Option SeverReport
  | .severed r => some r
  | _ => none

/-- JOIN (R106 to R109): refused HELD_DOWN while the sever input is asserted and BAD_PARAMETER for a keepalive
interval outside 20 to 10 000 ms; on an open session it is a rejoin, which severs it first (R108). -/
def joinVerdict (p : Port) (f : Frame) (s : State) : Verdict :=
  .checked
    [(s.severInputs[p].filtered, .heldDown),
     (decide ((f.word 2).toNat < 20) || decide (10000 < (f.word 2).toNat), .badParameter)]
    (let closed := s.severPort p .rejoin
     let joined := closed.openSession p (f.word 0) (f.word 2)
     .executed .ok (joined.joinBody p (closed.session p).state.report (f.word 2)) joined)

/-- LEAVE (R111): the session ends as at a sever, IDLE and without a report. -/
def leaveVerdict (p : Port) (f : Frame) (s : State) : Verdict :=
  .checked (s.sessionChecks p f)
    (.executed .ok [byteOf (s.holdingsOf p).length, byteOf (s.openRequests p)] (s.endSession p .idle))

/-- TOUCH (R110). -/
def touchVerdict (p : Port) (f : Frame) (s : State) : Verdict :=
  .checked (s.sessionChecks p f) (.executed .ok [] s)

/-- The liveness bytes of SESSION_INFO: frame-seen flag, miss count, recovery streak (R124). -/
def SessionState.liveness : SessionState → List Byte
  | .lapsed _ l => [byteOfBool l.frameSeen, byteOf l.missCount, byteOf l.streak]
  | _ => [0, 0, 0]

/-- The reply body of SESSION_INFO (R124, R192). -/
def State.sessionInfoBody (s : State) (p : Port) (o : OpenSession) : List Byte :=
  [(s.session p).state.code, s.incarnation p] ++ wordBytes o.clientId ++ wordBytes o.keepalive ++
    wordBytes (BitVec.ofNat 16 (s.remainingWindow o)) ++ (s.session p).state.liveness ++
    (List.finRange 8).flatMap (fun h => (s.slot p h).codes) ++
    [byteOf (s.holdingsOf p).length, byteOf (s.queue p).entries.length, byteOf (s.queue p).undelivered]

/-- SESSION_INFO (R124). -/
def sessionInfoVerdict (p : Port) (f : Frame) (s : State) : Verdict :=
  .checked (s.sessionChecks p f)
    (.executed .ok (((s.session p).state.opened.map (s.sessionInfoBody p)).getD []) s)

/-- SEVER (R122): of the port named, which may be the supervisor's own; an IDLE or SEVERED one is answered with
both counts 0. -/
def severVerdict (p : Port) (f : Frame) (s : State) : Verdict :=
  .checked (s.supervisorChecks p f ++ [(decide (5 < (f.byte 0).toNat), .badParameter)])
    (let k := portOf (f.byte 0)
     .executed .ok
       (if s.isOpen k then [byteOf (s.holdingsOf k).length, byteOf (s.openRequests k)] else [0, 0])
       (s.severPort k .supervisor))

/-- The outcome type of the machine. -/
abbrev Result := Host.Outcome State Fault Refusal

/-- JOIN (R107). -/
def execJoin (p : Port) (s : State) : Result := .next (s.serve .join p (joinVerdict p))

/-- LEAVE (R111). -/
def execLeave (p : Port) (s : State) : Result := .next (s.serve .leave p (leaveVerdict p))

/-- TOUCH (R110). -/
def execTouch (p : Port) (s : State) : Result := .next (s.serve .touch p (touchVerdict p))

/-- SESSION_INFO (R124). -/
def execSessionInfo (p : Port) (s : State) : Result := .next (s.serve .sessionInfo p (sessionInfoVerdict p))

/-- SEVER (R122). -/
def execSever (p : Port) (s : State) : Result := .next (s.serve .sever p (severVerdict p))

end Sys2Proof.Machine
end

