-- ==== Sys2Proof/Machine/ClaimRequests.lean ====
section
/-! DEFINITION. The hosts' requests of the Claim Table (Chapters 1 to 3): CLAIM, CANCEL, RELEASE, RESOURCE_INFO,
HOLDINGS. -/

namespace Sys2Proof.Machine

/-! ## CLAIM -/

/-- The number of items the LENGTH of a CLAIM carries (R187). -/
def Frame.itemCount (f : Frame) : Nat := (f.length - 7) / 2

/-- The resource byte and the mode byte of each item of a CLAIM, in body order (R187). -/
def Frame.itemBytes (f : Frame) : List (Byte × Byte) :=
  (List.range f.itemCount).map fun i => (f.byte (4 + 2 * i), f.byte (5 + 2 * i))

/-- The items of a CLAIM whose bytes have passed the parameter check (R27, R187). -/
def Frame.items (f : Frame) : List Item :=
  f.itemBytes.map fun b => { resource := resOf b.1, mode := (ClaimMode.ofCode b.2).getD .exclusive }

/-- The queue holds a REVOKED notice for the resource, delivered or not (R29, R139). -/
def State.revocationPending (s : State) (p : Port) (x : ResNo) : Bool :=
  (s.queue p).entries.any fun e => e.notice.revokes x

/-- The checks of CLAIM in their order (R27, R28, R29). -/
def State.claimChecks (s : State) (p : Port) (f : Frame) : List (Bool × Status) :=
  s.sessionChecks p f ++
    [s.modeCheck .service,
     (decide (7 < (f.byte 0).toNat), .badParameter),
     (decide ((f.byte 3).toNat = 0) || decide (4 < (f.byte 3).toNat) || (f.byte 3).toNat != f.itemCount, .badParameter),
     (f.itemBytes.any fun b => decide (63 < b.1.toNat), .badParameter),
     (f.itemBytes.any fun b => (ClaimMode.ofCode b.2).isNone, .badParameter),
     (f.items.any fun i => (s.resource i.resource).isNone, .undefinedResource),
     (f.items.any fun i => i.mode == .shared && !((s.kindOf i.resource).any Kind.isShareable), .badParameter),
     (f.items.any fun i => (s.kindOf i.resource).any Kind.isFaulted, .resourceFaulted),
     (s.slot p (handleOf (f.byte 0)) != .free, .handleInUse),
     (!decide ((f.items.map fun i => i.resource).Nodup), .duplicate),
     (f.items.any fun i => (s.claimOn p i.resource).isSome, .duplicate),
     (f.items.any fun i => s.revocationPending p i.resource, .revocationPending),
     (decide (s.freeCount < f.items.length), .noRoom)]

/-- The wait timer of a wait limit started now (R46). -/
def State.waitTimer (s : State) (limit : Word16) : Option Time :=
  if limit = 0 then none else some (s.now + msUnits limit)

/-- Steps 1 to 3 of acceptance: the claims are taken from the pool and stand at the tails of their queues, and the
slot becomes WAITING with its wait timer started (R30). -/
def State.fileRequest (s : State) (p : Port) (h : Handle) (items : List Item) (limit : Word16) : State :=
  (s.setClaims (s.claims ++ items.map fun i =>
      { owner := p, resource := i.resource, mode := i.mode, state := .waiting h })).setSlot p h
    (.waiting { incarnation := s.incarnation p, items := items, waitLimit := limit } (s.waitTimer limit))

/-- The acceptance of a CLAIM (R30). The resources from which step 4 takes a claim are named ones, so the named
resources are the whole pending set of step 5. DESIGN CHOICE (log entry 18): step 4 acts on the named resources in the
order of the CLAIM body, which R30 leaves open. -/
def State.accept (s : State) (p : Port) (h : Handle) (items : List Item) (limit : Word16) : State :=
  let xs := items.map fun i => i.resource
  let filed := s.fileRequest p h items limit
  let yielded := xs.foldl (fun s x => s.beginYield x fun _ => true) filed
  yielded.evaluateWith (some (p, h)) xs

/-- The grant numbers of a port's HELD claims on resources, in order (R31). -/
def State.claimGrants (s : State) (p : Port) (xs : List ResNo) : List (ResNo × Word16) :=
  xs.filterMap fun x => (s.claimOn p x).bind fun c => c.state.grant.map fun g => (x, g)

/-- The GRANTED record (R189). -/
def grantedRecord (h : Handle) (items : List (ResNo × Word16)) : List Byte :=
  [byteOf h, byteOf items.length] ++ items.flatMap fun i => byteOf i.1 :: wordBytes i.2

/-- The answer to an accepted CLAIM: GRANTED where the event has granted the request and freed its slot, ACCEPTED
otherwise (R31, R189). -/
def acceptedAnswer (p : Port) (h : Handle) (xs : List ResNo) (t : State) : Verdict :=
  if t.slot p h = .free then .executed .granted (grantedRecord h (t.claimGrants p xs)) t
  else .executed .accepted [byteOf h] t

/-- CLAIM (R27 to R31). -/
def claimVerdict (p : Port) (f : Frame) (s : State) : Verdict :=
  .checked (s.claimChecks p f)
    (acceptedAnswer p (handleOf (f.byte 0)) (f.items.map fun i => i.resource)
      (s.accept p (handleOf (f.byte 0)) f.items (f.word 1)))

/-! ## CANCEL, RELEASE -/

/-- A request is dropped: its claims are removed, its slot becomes FREE and its resources are evaluated; no notice
is added (R42, R43). -/
def State.cancelRequest (s : State) (p : Port) (h : Handle) : State :=
  ((s.removeClaims (Claim.ofRequest p h)).setSlot p h .free).evaluate (s.itemResources p h)

/-- CANCEL (R42, R43, R45). -/
def cancelVerdict (p : Port) (f : Frame) (s : State) : Verdict :=
  .checked
    (s.sessionChecks p f ++
      [(decide (7 < (f.byte 0).toNat), .badParameter), (!(s.slot p (handleOf (f.byte 0))).isOpen, .notWaiting)])
    (.executed .ok [] (s.cancelRequest p (handleOf (f.byte 0))))

/-- The grant number of a port's HELD claim on a resource (R58). -/
def State.heldGrant (s : State) (p : Port) (x : ResNo) : Option Word16 :=
  (s.claimOn p x).bind fun c => c.state.grant

/-- The HELD claim of a port on a resource. -/
def Claim.isHolding (p : Port) (x : ResNo) (c : Claim) : Bool := c.owner == p && c.resource == x && c.state.isHeld

/-- RELEASE (R57, R58). -/
def releaseVerdict (p : Port) (f : Frame) (s : State) : Verdict :=
  .checked
    (s.sessionChecks p f ++ s.resourceChecks (f.byte 0) ++
      [((s.heldGrant p (resOf (f.byte 0))).isNone, .notHeld),
       (s.heldGrant p (resOf (f.byte 0)) != some (f.word 1), .staleGrant)])
    (.executed .ok [] (s.removeAndEvaluate (Claim.isHolding p (resOf (f.byte 0)))))

/-! ## RESOURCE_INFO, HOLDINGS -/

/-- The definition part of RESOURCE_INFO, in the layout of the DEFINE body of the kind (R188, R192). -/
def Resource.definitionBytes (r : Resource) (x : ResNo) : List Byte :=
  match r.kind with
  | .token sh _ =>
    [byteOf x, 0] ++ wordBytes r.label ++ [byteOfBool sh] ++ wordBytes r.holdLimit ++ wordBytes r.yieldGrace
  | .line d _ _ =>
    [byteOf x, 1] ++ wordBytes r.label ++ [0] ++ wordBytes r.holdLimit ++ wordBytes r.yieldGrace ++
      [d.firstLine, d.width, d.idle] ++ d.drive.toList ++ wordBytes d.guard ++
      (match d.confirm with
       | none => [0xFF, 0xFF, 0, 0]
       | some b => [byteOf b.input, byteOfBool b.engagedHigh] ++ wordBytes b.timeout)

/-- State, grant number and fault reason of RESOURCE_INFO (R192). -/
def Resource.stateBytes (r : Resource) : List Byte :=
  match r.kind with
  | .token _ st => st.code :: wordBytes r.grantNumber ++ [st.faultCode]
  | .line _ st _ => st.code :: wordBytes r.grantNumber ++ [st.faultCode]

/-- The assigned set in ascending port order (R9, R17). -/
def State.assignedByPort (s : State) (x : ResNo) : List Claim :=
  (List.finRange 6).flatMap fun p => (s.assigned x).filter fun c => c.owner == p

/-- An assigned entry of RESOURCE_INFO (R192). -/
def Claim.assignedEntry (c : Claim) : List Byte :=
  [byteOf c.owner, c.mode.code, c.state.code] ++ wordBytes (c.state.grant.getD 0)

/-- A wait entry of RESOURCE_INFO (R192). -/
def Claim.waitEntry (c : Claim) : List Byte := [byteOf c.owner, byteOf (c.state.handle.getD 0), c.mode.code]

/-- The reply body of RESOURCE_INFO (R17, R192). -/
def State.resourceInfoBody (s : State) (x : ResNo) (r : Resource) : List Byte :=
  r.definitionBytes x ++ r.stateBytes ++ wordBytes (BitVec.ofNat 16 (s.remainingGuard r.kind)) ++
    byteOf (s.assignedByPort x).length :: (s.assignedByPort x).flatMap Claim.assignedEntry ++
    byteOf (s.waitQueue x).length :: (s.waitQueue x).flatMap Claim.waitEntry

/-- RESOURCE_INFO (R17). -/
def resourceInfoVerdict (p : Port) (f : Frame) (s : State) : Verdict :=
  .checked (s.sessionChecks p f ++ s.resourceChecks (f.byte 0))
    (.executed .ok
      (((s.resource (resOf (f.byte 0))).map (s.resourceInfoBody (resOf (f.byte 0)))).getD []) s)

/-- The claims of a port from a start resource upward, in ascending resource order (R51). -/
def State.claimsFrom (s : State) (p : Port) (start : Nat) : List Claim :=
  ((List.finRange 64).filter fun x => decide (start ≤ x.val)).flatMap fun x =>
    s.claims.filter fun c => c.owner == p && c.resource == x

/-- The byte of a HOLDINGS entry that is the handle of a WAITING or RESERVED claim and the hold phase of a HELD one
(R192). -/
def ClaimState.detail : ClaimState → Byte
  | .waiting h => byteOf h
  | .reserved h => byteOf h
  | .held _ ph => ph.code

/-- A claim entry of HOLDINGS (R192). -/
def Claim.holdingsEntry (c : Claim) : List Byte :=
  [byteOf c.resource, c.mode.code, c.state.code, c.state.detail] ++ wordBytes (c.state.grant.getD 0)

/-- The continuation field of HOLDINGS: the resource number after the last claim reported, where further claims
exist, 0xFF otherwise (R51, R192). -/
def continuation (cs : List Claim) : Byte :=
  match (cs.take Config.holdingsEntries).getLast?, cs.drop Config.holdingsEntries with
  | some c, _ :: _ => byteOf (c.resource.val + 1)
  | _, _ => 0xFF

/-- The reply body of HOLDINGS (R51, R192). -/
def State.holdingsBody (s : State) (p : Port) (start : Nat) : List Byte :=
  let shown := (s.claimsFrom p start).take Config.holdingsEntries
  [byteOf shown.length, continuation (s.claimsFrom p start)] ++ shown.flatMap Claim.holdingsEntry

/-- HOLDINGS (R51). -/
def holdingsVerdict (p : Port) (f : Frame) (s : State) : Verdict :=
  .checked (s.sessionChecks p f ++ [(decide (63 < (f.byte 0).toNat), .badParameter)])
    (.executed .ok (s.holdingsBody p (f.byte 0).toNat) s)

/-- CLAIM (R30). -/
def execClaim (p : Port) (s : State) : Result := .next (s.serve .claim p (claimVerdict p))

/-- CANCEL (R42). -/
def execCancel (p : Port) (s : State) : Result := .next (s.serve .cancel p (cancelVerdict p))

/-- RELEASE (R58). -/
def execRelease (p : Port) (s : State) : Result := .next (s.serve .release p (releaseVerdict p))

/-- RESOURCE_INFO (R17). -/
def execResourceInfo (p : Port) (s : State) : Result := .next (s.serve .resourceInfo p (resourceInfoVerdict p))

/-- HOLDINGS (R51). -/
def execHoldings (p : Port) (s : State) : Result := .next (s.serve .holdings p (holdingsVerdict p))

end Sys2Proof.Machine
end

