-- ==== Sys2Proof/Machine/NoticeRequests.lean ====
section
/-! DEFINITION. The request of the Notice Store (Chapter 6): FETCH. -/

namespace Sys2Proof.Machine

/-- The entries that an acknowledgement removes: the run from the head up to and including the delivered entry
with the number, and none where no delivered entry carries it or it is 0 (R136). -/
def ackedEntries (ack : Word16) (entries : List Entry) : List Entry :=
  if ack = 0 then []
  else
    match entries.findIdx? fun e => e.delivered && e.seq == ack with
    | some i => entries.take (i + 1)
    | none => []

/-- The acknowledgement events for the handle-keyed entries removed, in queue order (R138). -/
def ackEventsOf (p : Port) (inc : Byte) (removed : List Entry) : List AckEvent :=
  removed.filterMap fun e =>
    match e.notice.key with
    | .handle h => some { port := p, handle := h, incarnation := inc }
    | _ => none

/-- The first `n` undelivered entries of a queue are marked delivered (R137). -/
def deliver : Nat → List Entry → List Entry
  | _, [] => []
  | 0, es => es
  | n + 1, e :: es => if e.delivered then e :: deliver (n + 1) es else { e with delivered := true } :: deliver n es

/-- The entries that delivery returns (R137). -/
def delivered (n : Nat) (entries : List Entry) : List Entry := (entries.filter fun e => !e.delivered).take n

/-- The body of a notice record (R190). -/
def Notice.bodyBytes : Notice → List Byte
  | .granted h items => grantedRecord h items
  | .expired h => [byteOf h]
  | .failed h x r => [byteOf h, byteOf x, r.code]
  | .withdrawn h => [byteOf h, 0]
  | .yieldDue x g grace => byteOf x :: wordBytes g ++ wordBytes grace
  | .revoked x g r => byteOf x :: wordBytes g ++ [r.code]
  | .modeChanged m => [m.code]

/-- A notice record of a FETCH reply (R190). -/
def Entry.record (e : Entry) : List Byte :=
  wordBytes e.seq ++
    [e.notice.key.codes.1, e.notice.key.codes.2, e.notice.kindCode, byteOf e.notice.bodyBytes.length] ++
    e.notice.bodyBytes

/-- The queue's entries after the first two steps of FETCH: the acknowledged run is gone, and with the redeliver
flag every mark is cleared (R136, R137). -/
def NoticeQueue.acknowledge (q : NoticeQueue) (ack : Word16) (redeliver : Bool) : List Entry :=
  let left := q.entries.drop (ackedEntries ack q.entries).length
  if redeliver then left.map fun e => { e with delivered := false } else left

/-- The execution of FETCH (R135 to R138). -/
def State.fetchNotices (s : State) (p : Port) (ack : Word16) (redeliver : Bool) : Verdict :=
  let q := s.queue p
  let removed := ackedEntries ack q.entries
  let left := q.acknowledge ack redeliver
  let out := delivered Config.fetchRecords left
  let q' := { q with entries := deliver Config.fetchRecords left }
  .executed .ok
    ([byteOf removed.length, byteOf q'.undelivered, byteOf out.length] ++ out.flatMap Entry.record)
    { s.setQueue p q' with ackEvents := s.ackEvents ++ ackEventsOf p q.incarnation removed }

/-- FETCH (R135). -/
def fetchVerdict (p : Port) (f : Frame) (s : State) : Verdict :=
  .checked (s.sessionChecks p f ++ [(f.byte 2 != 0 && f.byte 2 != 1, .badParameter)])
    (s.fetchNotices p (f.word 0) (f.byte 2 == 1))

/-- FETCH (R135). -/
def execFetch (p : Port) (s : State) : Result := .next (s.serve .fetch p (fetchVerdict p))

end Sys2Proof.Machine
end

