-- ==== Sys2Proof/Machine/ResourceRequests.lean ====
section
/-! DEFINITION. The supervisor's requests of the Claim Table: DEFINE, UNDEFINE (Chapter 1), FORCE_RELEASE, DISABLE
(Chapter 3), CLEAR_FAULT (Chapter 4). -/

namespace Sys2Proof.Machine

/-! ## DEFINE -/

/-- The DEFINE is of the LINE form, of 24 body bytes (R188). -/
def Frame.isLineForm (f : Frame) : Bool := f.length == 27

/-- The confirm binding of a LINE DEFINE; with 0xFF there is none, and the engaged level and timeout are not
examined (R6, R186, R188). -/
def Frame.confirmBinding (f : Frame) : Option ConfirmBinding :=
  if f.byte 20 = 0xFF then none
  else some { input := Fin.ofNat 16 (f.byte 20).toNat, engagedHigh := f.byte 21 == 1, timeout := f.word 22 }

/-- The line fields of a LINE DEFINE (R188). -/
def Frame.lineDef (f : Frame) : LineDef :=
  { firstLine := f.byte 9
    width := f.byte 10
    idle := f.byte 11
    drive := Vector.ofFn fun k : Fin 6 => f.byte (12 + k.val)
    guard := f.word 18
    confirm := f.confirmBinding }

/-- The record a DEFINE writes (R13, R14): a TOKEN resource VACANT; a LINE resource COOLING with the idle pattern
applied and the guard started now. The grant number is 0. -/
def Frame.defined (f : Frame) (now : Time) : Resource :=
  { label := f.word 2
    holdLimit := f.word 5
    yieldGrace := f.word 7
    grantNumber := 0
    kind :=
      if f.isLineForm then
        .line f.lineDef .cooling { applied := none, phase := .guard (now + f.lineDef.guard.toNat) }
      else .token (f.byte 4 == 1) .vacant }

/-- A pattern has a 1 at or above the width (R4). -/
def patternTooWide (width pattern : Byte) : Bool := pattern >>> width.toNat != 0

/-- The parameter checks of the line fields (R3, R4, R6, R11). -/
def LineDef.badFields (d : LineDef) : Bool :=
  decide (31 < d.firstLine.toNat) || d.width == 0 || decide (8 < d.width.toNat) ||
    decide (32 < d.firstLine.toNat + d.width.toNat) ||
    patternTooWide d.width d.idle || (d.drive.toList.any fun b => patternTooWide d.width b) ||
    d.drive.toList.any fun b => b == d.idle

/-- The parameter checks of the confirm fields (R6, R11, R186). -/
def Frame.badConfirm (f : Frame) : Bool :=
  f.byte 20 != 0xFF &&
    (decide (15 < (f.byte 20).toNat) || decide (1 < (f.byte 21).toNat) || (f.word 22).toNat == 0 ||
      decide (5000 < (f.word 22).toNat))

/-- The parameter check of DEFINE (R11, R186). -/
def Frame.badDefine (f : Frame) : Bool :=
  decide (63 < (f.byte 0).toNat) || decide (1 < (f.byte 1).toNat) || (f.byte 1 == 1) != f.isLineForm ||
    decide (1 < (f.byte 4).toNat) ||
    (f.isLineForm && (f.byte 4 == 1 || f.lineDef.badFields || f.badConfirm))

/-- Two line groups share a line (R3). -/
def LineDef.meets (d e : LineDef) : Bool :=
  decide (d.firstLine.toNat < e.firstLine.toNat + e.width.toNat ∧ e.firstLine.toNat < d.firstLine.toNat + d.width.toNat)

/-- Another defined LINE resource's group shares a line with the group (R12). -/
def State.lineConflict (s : State) (x : ResNo) (d : LineDef) : Bool :=
  (List.finRange 64).any fun y => y != x && (s.lineDef y).any d.meets

/-- Another defined resource is bound to the same confirm input (R6, R12). -/
def State.confirmConflict (s : State) (x : ResNo) (d : LineDef) : Bool :=
  match d.confirm with
  | none => false
  | some b =>
    (List.finRange 64).any fun y => y != x && ((s.lineDef y).bind fun e => e.confirm).any fun c => c.input == b.input

/-- DEFINE (R11 to R15). The orders "bind group" and "release group" make earlier reports for the resource current
no longer (R76, R77); the levels of the lines follow from the record (R15, R75). -/
def defineVerdict (p : Port) (f : Frame) (s : State) : Verdict :=
  let x := resOf (f.byte 0)
  .checked
    (s.supervisorChecks p f ++
      [s.modeCheck .setup,
       (f.badDefine, .badParameter),
       ((s.kindOf x).any fun k => !k.isVacant, .resourceBusy),
       (f.isLineForm && s.lineConflict x f.lineDef, .lineConflict),
       (f.isLineForm && s.confirmConflict x f.lineDef, .confirmConflict)])
    (.executed .ok [] ((s.setResource x (some (f.defined s.now))).staleReports x))

/-- UNDEFINE (R16), with the order "release group" for a LINE resource. -/
def undefineVerdict (p : Port) (f : Frame) (s : State) : Verdict :=
  .checked (s.supervisorChecks p f ++ s.modeCheck .setup :: s.resourceChecks (f.byte 0))
    (.executed .ok [] ((s.setResource (resOf (f.byte 0)) none).staleReports (resOf (f.byte 0))))

/-! ## FORCE_RELEASE, DISABLE, CLEAR_FAULT -/

/-- A claim RESERVED on `x`. -/
def Claim.reservedOn (x : ResNo) (c : Claim) : Bool := c.resource == x && c.state.isReserved

/-- A claim WAITING or RESERVED on `x`. -/
def Claim.requestOn (x : ResNo) (c : Claim) : Bool := c.resource == x && c.state.handle.isSome

/-- The resources named by several requests. -/
def State.itemsOfAll (s : State) (rs : List (Port × Handle)) : List ResNo :=
  rs.flatMap fun r => s.itemResources r.1 r.2

/-- The event of FORCE_RELEASE (R68). -/
def State.forceReleaseEvent (s : State) (x : ResNo) : State :=
  let rs := s.requestsWith (Claim.reservedOn x)
  ((s.revoke x .supervisor fun _ => true).failAll rs x .supervisor).evaluate (x :: s.itemsOfAll rs)

/-- The event of DISABLE (R70). The resource is faulted first, so that the removals find it FAULTED and leave it
so; the state at the end of the event is the same (R64, R48). -/
def State.disableEvent (s : State) (x : ResNo) : State :=
  let rs := s.requestsWith (Claim.requestOn x)
  (((s.faultResource x .disabled).revoke x .disabled fun _ => true).failAll rs x .disabled).evaluate
    (x :: s.itemsOfAll rs)

/-- The event of CLEAR_FAULT (R97): a FAULTED LINE resource becomes COOLING with a fresh guard, a FAULTED TOKEN
resource VACANT, and it is evaluated; any other is left as it is. -/
def State.clearFaultEvent (s : State) (x : ResNo) : State :=
  match s.kindOf x with
  | some (.line _ (.faulted _) _) => (s.cool x).evaluate [x]
  | some (.token sh .faulted) => (s.setKind x (.token sh .vacant)).evaluate [x]
  | _ => s

/-- FORCE_RELEASE (R68). -/
def forceReleaseVerdict (p : Port) (f : Frame) (s : State) : Verdict :=
  .checked (s.supervisorChecks p f ++ s.resourceChecks (f.byte 0))
    (.executed .ok [] (s.forceReleaseEvent (resOf (f.byte 0))))

/-- DISABLE (R69, R70). -/
def disableVerdict (p : Port) (f : Frame) (s : State) : Verdict :=
  .checked (s.supervisorChecks p f ++ s.resourceChecks (f.byte 0))
    (.executed .ok [] (s.disableEvent (resOf (f.byte 0))))

/-- CLEAR_FAULT (R97). -/
def clearFaultVerdict (p : Port) (f : Frame) (s : State) : Verdict :=
  .checked (s.supervisorChecks p f ++ s.resourceChecks (f.byte 0))
    (.executed .ok [] (s.clearFaultEvent (resOf (f.byte 0))))

/-- DEFINE (R12). -/
def execDefine (p : Port) (s : State) : Result := .next (s.serve .define p (defineVerdict p))

/-- UNDEFINE (R16). -/
def execUndefine (p : Port) (s : State) : Result := .next (s.serve .undefine p (undefineVerdict p))

/-- FORCE_RELEASE (R68). -/
def execForceRelease (p : Port) (s : State) : Result := .next (s.serve .forceRelease p (forceReleaseVerdict p))

/-- DISABLE (R70). -/
def execDisable (p : Port) (s : State) : Result := .next (s.serve .disable p (disableVerdict p))

/-- CLEAR_FAULT (R97). -/
def execClearFault (p : Port) (s : State) : Result := .next (s.serve .clearFault p (clearFaultVerdict p))

end Sys2Proof.Machine
end

