-- ==== Sys2Proof/Machine/SupervisionRequests.lean ====
section
/-! DEFINITION. The requests of Supervision (Chapter 7): PART_INFO, SET_LIMITS, SET_MODE, SET_SUPERVISOR, RESTART;
and the change of mode at the end of a drain (R149). -/

namespace Sys2Proof.Machine

/-! ## PART_INFO, SET_SUPERVISOR -/

/-- The reply body of PART_INFO (R158, R192). -/
def State.partInfoBody (s : State) (p : Port) : List Byte :=
  [byteOf p, s.mode.code, byteOf s.supervisor, byteOf s.freeCount, byteOf s.threshold, byteOf s.recovery,
   byteOf s.filterTime]

/-- PART_INFO (R158). -/
def partInfoVerdict (p : Port) (f : Frame) (s : State) : Verdict :=
  .checked (s.partInfoChecks p f) (.executed .ok (s.partInfoBody p) s)

/-- SET_SUPERVISOR (R153). -/
def setSupervisorVerdict (p : Port) (f : Frame) (s : State) : Verdict :=
  .checked (s.supervisorChecks p f ++ [(decide (5 < (f.byte 0).toNat), .badParameter)])
    (.executed .ok [byteOf (portOf (f.byte 0))] { s with supervisor := portOf (f.byte 0) })

/-! ## SET_LIMITS -/

/-- The Session Controller examines one session against the limits in force (R116). -/
def State.applyLimits (s : State) (p : Port) : State :=
  match (s.session p).state with
  | .lapsed o l =>
    if s.threshold ≤ l.missCount then s.severPort p .keepalive
    else if s.recovery ≤ l.streak then s.recover p o
    else s
  | _ => s

/-- The event of SET_LIMITS (R154). The new filter time reaches the confirm inputs through the state (R79). -/
def State.limitsEvent (s : State) (threshold recovery filterTime : Nat) : State :=
  (List.finRange 6).foldl State.applyLimits
    { s with threshold := threshold, recovery := recovery, filterTime := filterTime }

/-- A limit outside 1 to 15 (R154). -/
def badLimit (b : Byte) : Bool := b.toNat == 0 || decide (15 < b.toNat)

/-- SET_LIMITS (R154). -/
def setLimitsVerdict (p : Port) (f : Frame) (s : State) : Verdict :=
  .checked (s.supervisorChecks p f ++ [s.modeCheck .setup, (badLimit (f.byte 0) || badLimit (f.byte 1), .badParameter)])
    (.executed .ok [f.byte 0, f.byte 1, f.byte 2]
      (s.limitsEvent (f.byte 0).toNat (f.byte 1).toNat (f.byte 2).toNat))

/-! ## SET_MODE -/

/-- The mode check of SET_MODE refuses: QUIESCE from SETUP, and SETUP from SERVICE and QUIESCE (R146). -/
def modeRefused (present : DeviceMode) (asked : Byte) : Bool :=
  match present, DeviceMode.ofCode asked with
  | .setup, some .quiesce => true
  | .service, some .setup => true
  | .quiesce, some .setup => true
  | _, _ => false

/-- A change of mode, which makes every earlier "no claims remain" report current no longer (R149). -/
def State.changeMode (s : State) (m : DeviceMode) : State :=
  { s with mode := m, drainReports := s.drainReports.map fun _ => false }

/-- SET_MODE SERVICE from SETUP or QUIESCE (R147). -/
def State.enterService (s : State) : State :=
  ((s.changeMode .service).notifyMode .service).evaluate (List.finRange 64)

/-- The drain into SETUP: the mode becomes SETUP and every open session is told (R148 step 4, R149). -/
def State.drainToSetup (s : State) : State := ({ s with mode := .setup } : State).notifyMode .setup

/-- SET_MODE QUIESCE from SERVICE (R148). -/
def State.enterQuiesce (s : State) : State :=
  let withdrawn :=
    (((s.changeMode .quiesce).notifyMode .quiesce).withdrawAll).evaluate (s.losers fun c => c.state.isWaiting)
  if withdrawn.freeCount = Config.poolSize then withdrawn.drainToSetup else withdrawn

/-- SET_MODE carried out (R146 to R148); asking for the present mode changes nothing. -/
def State.setModeEvent (s : State) (asked : DeviceMode) : State :=
  match s.mode, asked with
  | .setup, .service => s.enterService
  | .quiesce, .service => s.enterService
  | .service, .quiesce => s.enterQuiesce
  | _, _ => s

/-- SET_MODE (R146). -/
def setModeVerdict (p : Port) (f : Frame) (s : State) : Verdict :=
  .checked
    (s.supervisorChecks p f ++
      [(modeRefused s.mode (f.byte 0), .wrongMode), ((DeviceMode.ofCode (f.byte 0)).isNone, .badParameter)])
    (let t := s.setModeEvent ((DeviceMode.ofCode (f.byte 0)).getD s.mode)
     .executed .ok [s.mode.code, t.mode.code] t)

/-! ## RESTART -/

/-- The Session Controller's, Notice Store's and Port Interface's part of RESTART for one port: an open session is
severed with reason RESTART, counted from what the port owned when the event began (R126, R142, R120). -/
def State.restartPort (began s : State) (p : Port) : State :=
  match (began.session p).state.opened with
  | some o => ((s.setSessionState p (.severed (began.severReport p o .restart))).clearQueue p).dropFrames p
  | none => s

/-- A defined resource as RESTART sets it (R19, R100). -/
def State.restartResource (s : State) (x : ResNo) : State :=
  match s.kindOf x with
  | some (.token sh _) => s.setKind x (.token sh .vacant)
  | some (.line _ _ _) => s.cool x
  | none => s

/-- The event of RESTART (R53, R126, R156). -/
def State.restartEvent (s : State) : State :=
  let ended := (List.finRange 6).foldl (fun t p => s.restartPort t p) s
  let cleared : State :=
    { ended with claims := [], slots := Vector.replicate 6 (Vector.replicate 8 .free) }
  ((List.finRange 64).foldl State.restartResource cleared).changeMode .setup

/-- RESTART (R155, R156). -/
def restartVerdict (p : Port) (f : Frame) (s : State) : Verdict :=
  .checked (s.supervisorChecks p f)
    (.executed .ok [byteOf ((List.finRange 6).countP fun k => s.isOpen k), byteOf s.claims.length] s.restartEvent)

/-- PART_INFO (R158). -/
def execPartInfo (p : Port) (s : State) : Result := .next (s.serve .partInfo p (partInfoVerdict p))

/-- SET_LIMITS (R154). -/
def execSetLimits (p : Port) (s : State) : Result := .next (s.serve .setLimits p (setLimitsVerdict p))

/-- SET_MODE (R146). -/
def execSetMode (p : Port) (s : State) : Result := .next (s.serve .setMode p (setModeVerdict p))

/-- SET_SUPERVISOR (R153). -/
def execSetSupervisor (p : Port) (s : State) : Result := .next (s.serve .setSupervisor p (setSupervisorVerdict p))

/-- RESTART (R156). -/
def execRestart (p : Port) (s : State) : Result := .next (s.serve .restart p (restartVerdict p))

end Sys2Proof.Machine
end

