-- ==== Sys2Proof/Machine/PortEvents.lean ====
section
/-! DEFINITION. The Port Interface (Chapter 8): SET_RATE, the receiver, the take of a request, the transmitter and
the break detector. -/

namespace Sys2Proof.Machine

/-! ## SET_RATE -/

/-- SET_RATE (R175): the pending rate is set; the current rate is not changed in this event. -/
def setRateVerdict (p : Port) (f : Frame) (s : State) : Verdict :=
  .checked (s.sessionChecks p f ++ [((Rate.ofCode (f.byte 0)).isNone, .badParameter)])
    (.executed .ok [f.byte 0] (s.setPort p { s.port p with pendingRate := Rate.ofCode (f.byte 0) }))

/-- SET_RATE (R175). -/
def execSetRate (p : Port) (s : State) : Result := .next (s.serve .setRate p (setRateVerdict p))

/-! ## The receiver -/

/-- The silence timer started now at the current rate (R165). -/
def PortInterface.startSilence (q : PortInterface) (now : Time) : PortInterface :=
  { q with silence := some (now + q.rate.silenceUnits) }

/-- The frame in progress, if any, is abandoned and the phase is HUNT, the silence timer stopped (R160, R162,
R163, R165). -/
def PortInterface.hunt (q : PortInterface) : PortInterface := { q with rx := .hunt, silence := none }

/-- The frame whose counted bytes have been gathered, where its received CRC equals the computed one, joins the
good frames; otherwise it is discarded (R163, R164). -/
def PortInterface.finishFrame (q : PortInterface) (got : List Byte) (received : Word16) : PortInterface :=
  if crc (byteOf got.length :: got) = received then
    { q with
      goodFrames := q.goodFrames ++
        [{ kind := got.getD 0 0, tag := got.getD 1 0, inc := got.getD 2 0, body := got.drop 3, stamp := q.frameCount }]
      frameCount := q.frameCount + 1 }
  else q

/-- A good character handed to the receiver phase (R162, R163). -/
def PortInterface.receive (q : PortInterface) (now : Time) (c : Byte) : PortInterface :=
  match q.rx with
  | .hunt => if c = sync then { q with rx := .length }.startSilence now else q.hunt
  | .length =>
    if 3 ≤ c.toNat ∧ c.toNat ≤ 100 then { q with rx := .body c.toNat [] }.startSilence now else q.hunt
  | .body count got =>
    (if (got ++ [c]).length < count then { q with rx := .body count (got ++ [c]) }
     else { q with rx := .crc (got ++ [c]) none }).startSilence now
  | .crc got none => { q with rx := .crc got (some c) }.startSilence now
  | .crc got (some low) => (q.finishFrame got (Word16.ofBytes low c)).hunt

/-- The receive line is at the mark level. -/
def RxLine.isMark : RxLine → Bool
  | .mark => true
  | .space _ _ => false

/-- CHARACTER_RECEIVED (R160, R162): a stop bit sampled at mark completes a good character. While the line is at
space no stop bit can be sampled at mark, and nothing is received (log entry 8). -/
def execCharacterReceived (p : Port) (c : Byte) (s : State) : Result :=
  .next (if (s.port p).line.isMark then
    s.setPort p ({ s.port p with character := none }.receive s.now c) else s)

/-- FRAMING_ERROR (R160): of a character in progress whose stop bit finds the line at space. -/
def execFramingError (p : Port) (s : State) : Result :=
  .next (if !(s.port p).line.isMark && (s.port p).character.isSome then
    s.setPort p { (s.port p).hunt with character := none } else s)

/-- A passage of the receive line (R160, R165, R177): to space, it starts the break detector's timing, and as a
start bit with no character in progress it begins a character at the current rate and stops the silence timer; to
mark, it ends the space run. -/
def PortInterface.lineChange (q : PortInterface) (now : Time) (space startBit : Bool) : PortInterface :=
  match q.line, space with
  | .mark, true =>
    if startBit && q.character.isNone then
      { q with line := .space now false, character := some q.rate, silence := none }
    else { q with line := .space now false }
  | .space _ _, false => { q with line := .mark }
  | _, _ => q

/-- RECEIVE_LINE_CHANGE (R177, R160). -/
def execReceiveLineChange (p : Port) (space startBit : Bool) (s : State) : Result :=
  .next (s.setPort p ((s.port p).lineChange s.now space startBit))

/-- SILENCE_LIMIT (R165): the running silence timer reaches its limit and the frame is abandoned. -/
def execSilenceLimit (p : Port) (s : State) : Result :=
  .next (match (s.port p).silence with
    | some t => (s.passTo t).setPort p (s.port p).hunt
    | none => s)

/-- A good frame is completed: reported to the Session Controller, then queued where the inbound queue holds fewer
than two frames and discarded otherwise (R167). -/
def PortInterface.completeFrame (q : PortInterface) (f : Frame) (rest : List Frame) : PortInterface :=
  { q with
    goodFrames := rest
    reports := q.reports ++ [{ stamp := f.stamp, inc := f.inc }]
    inbound := if q.inbound.length < Config.inboundPlaces then q.inbound ++ [f] else q.inbound }

/-- FRAME_COMPLETE (R167). -/
def execFrameComplete (p : Port) (s : State) : Result :=
  .next (match (s.port p).goodFrames with
    | f :: rest => s.setPort p ((s.port p).completeFrame f rest)
    | [] => s)

/-! ## Taking requests -/

/-- The reply cache answers the request: its KIND, TAG and INC bytes are the entry's (R174). -/
def CacheEntry.hit (e : CacheEntry) (f : Frame) : Bool := e.kind == f.kind && e.tag == f.tag && e.inc == f.inc

/-- The kind and length checks (R169, R183): checks 1 and 2 of R191. -/
def Frame.takeRefusal (f : Frame) : Option Status :=
  match RequestKind.ofCode f.kind with
  | none => some .unknownKind
  | some k => if k.lengths.contains f.length then none else some .badLength

/-- A taken request is answered from the cache, refused by the kind or length check, or enters the check stage
(R168, R169, R174). -/
def State.takeFrame (s : State) (p : Port) (f : Frame) : State :=
  match (s.port p).cache.filter fun e => e.hit f with
  | some e =>
    s.setPort p ((s.port p).addReply s.now { bytes := e.reply, appliesRate := false })
  | none =>
    match f.takeRefusal with
    | some status => s.refuse p f status
    | none => s.setPort p { s.port p with checkStage := some f }

/-- The second, third and fourth take conditions (R168). -/
def PortInterface.takeReady (q : PortInterface) : Bool :=
  q.checkStage.isNone && decide (q.replies.length < Config.replyPlaces) && q.pendingRate.isNone

/-- TAKE_REQUEST (R168). -/
def execTakeRequest (p : Port) (s : State) : Result :=
  .next (match (s.port p).inbound with
    | f :: rest =>
      if (s.port p).takeReady then (s.setPort p { s.port p with inbound := rest }).takeFrame p f else s
    | [] => s)

/-! ## The transmitter -/

/-- The oldest reply has gone at a moment, and the transmitter begins the next one at once; the reply of a SET_RATE
applies the pending rate (R172, R176). -/
def PortInterface.replyGone (q : PortInterface) (m : Moment) (r : Reply) (rest : List Reply) : PortInterface :=
  let next := { q with replies := rest, begins := if rest.isEmpty then none else some m }
  if r.appliesRate then { next with rate := q.pendingRate.getD q.rate, pendingRate := none } else next

/-- REPLY_SENT (R172): the last stop bit of the oldest reply ends. -/
def execReplySent (p : Port) (s : State) : Result :=
  .next (match (s.port p).replies with
    | r :: rest =>
      (s.passTo (unitOf ((s.port p).leavesAt s.now))).setPort p
        ((s.port p).replyGone ((s.port p).leavesAt s.now) r rest)
    | [] => s)

/-! ## Break -/

/-- The Port Interface's effects of a break at `now` (R178, steps 1 to 5, and R177): the reply cache is kept, and the
character then on the line is sent to its stop bit. Frames found good and reports not yet taken go with it: they precede the break,
and what they could do to the session the sever ends (R167, R179, log entry 6). -/
def PortInterface.breakEffect (q : PortInterface) (since now : Time) : PortInterface :=
  { q with
    rate := .r115200
    pendingRate := none
    rx := .hunt
    silence := none
    character := none
    line := .space since true
    goodFrames := []
    reports := []
    inbound := []
    checkStage := none
    replies := []
    begins := none
    lastChar := q.onLine (momentOf now) }

/-- BREAK (R177, R178): a space run reaches 10 ms and no break has been reported for it. -/
def execBreakDetected (p : Port) (s : State) : Result :=
  .next (match (s.port p).line with
    | .space since false =>
      let t := s.passTo (since + Config.breakUnits)
      (t.setPort p ((s.port p).breakEffect since t.now)).severPort p .lineBreak
    | _ => s)

end Sys2Proof.Machine
end

