-- ==== Sys2Proof/Machine/SessionEvents.lean ====
section
/-! DEFINITION. The events of the Session Controller (Chapter 5): frame reports, window expiries and the sever
inputs. -/

namespace Sys2Proof.Machine

/-- FRAME_REPORT (R103): the oldest report of the port is taken. -/
def execFrameReport (p : Port) (s : State) : Result :=
  .next (match (s.port p).reports with
    | r :: rest => (s.setPort p { s.port p with reports := rest }).seeFrame p r.inc
    | [] => s)

/-- A LIVE session's window expires: it lapses with miss count 1, or is severed where the threshold is 1 (R112). -/
def State.missFirst (s : State) (p : Port) (o : OpenSession) : State :=
  if s.threshold ≤ 1 then s.severPort p .keepalive
  else s.setSessionState p (.lapsed (s.restartWindow o) { frameSeen := false, missCount := 1, streak := 0 })

/-- A LAPSED session's window in which a valid frame was seen expires (R114). -/
def State.windowShown (s : State) (p : Port) (o : OpenSession) (l : Lapse) : State :=
  if s.recovery ≤ l.streak + 1 then s.recover p (s.restartWindow o)
  else s.setSessionState p (.lapsed (s.restartWindow o) { l with frameSeen := false, streak := l.streak + 1 })

/-- A LAPSED session's window in which none was seen expires (R115). -/
def State.windowMissed (s : State) (p : Port) (o : OpenSession) (l : Lapse) : State :=
  if s.threshold ≤ l.missCount + 1 then s.severPort p .keepalive
  else
    s.setSessionState p
      (.lapsed (s.restartWindow o) { frameSeen := false, missCount := l.missCount + 1, streak := 0 })

/-- WINDOW_EXPIRY (R112, R114, R115): of an open session's window. -/
def execWindowExpiry (p : Port) (s : State) : Result :=
  .next (match (s.session p).state with
    | .live o => (s.passTo o.windowEnds).missFirst p o
    | .lapsed o l =>
      if l.frameSeen then (s.passTo o.windowEnds).windowShown p o l else (s.passTo o.windowEnds).windowMissed p o l
    | _ => s)

/-- A raw level change at a filtered input starts its timing afresh (R78, R117). -/
def InputFilter.rawChange (f : InputFilter) (level : Bool) (now : Time) : InputFilter :=
  if f.raw = level then f else { f with raw := level, changed := now }

/-- The filtered level takes the raw level (R78, R117). -/
def InputFilter.settle (f : InputFilter) : InputFilter := { f with filtered := f.raw }

/-- SEVER_INPUT_CHANGE (R117). -/
def execSeverInputChange (p : Port) (asserted : Bool) (s : State) : Result :=
  .next (s.setSever p (s.severInputs[p].rawChange asserted s.now))

/-- SEVER_INPUT_FILTERED (R117, R118): the filtered level takes a raw level that has stood for 1 ms; when it
becomes asserted an open session is severed with reason PIN. -/
def execSeverInputFiltered (p : Port) (s : State) : Result :=
  .next (match s.severInputs[p].due Config.severFilterUnits with
    | none => s
    | some t =>
      let u := (s.passTo t).setSever p s.severInputs[p].settle
      if s.severInputs[p].raw then u.severPort p .pin else u)

end Sys2Proof.Machine
end

