-- ==== Sys2Proof/Machine/ClaimEvents.lean ====
section
/-! DEFINITION. The Claim Table's internal events that are no Line Unit reports (Chapters 2, 3, 5, 6), and
Supervision's taking of the drain report (R149). -/

namespace Sys2Proof.Machine

/-- The resources on which a session, named by port and incarnation, has the head claim (R37, R114). -/
def State.headsOf (s : State) (r : LiveReport) : List ResNo :=
  (List.finRange 64).filter fun x =>
    match s.headRequest x with
    | some (p, h) =>
      p == r.port && (match s.slot p h with | .waiting f _ => f.incarnation == r.incarnation | _ => false)
    | none => false

/-- LIVE_AGAIN (R114): the port's oldest report is taken and every resource on which that session has the head
claim is evaluated. -/
def execLiveAgain (p : Port) (s : State) : Result :=
  .next (match s.liveReports.find? fun r => r.port == p with
    | none => s
    | some r =>
      let t : State := { s with liveReports := s.liveReports.eraseP fun r => r.port == p }
      (t.evaluate (t.headsOf r)).endOfEvent)

/-- An acknowledgement event frees the slot where it is DONE under the event's incarnation (R24). -/
def State.acknowledge (s : State) (a : AckEvent) : State :=
  match s.slot a.port a.handle with
  | .done inc _ => if inc = a.incarnation then s.setSlot a.port a.handle .free else s
  | _ => s

/-- OUTCOME_ACKNOWLEDGED (R24): the oldest acknowledgement event for the port and handle is taken. -/
def execOutcomeAcknowledged (p : Port) (h : Handle) (s : State) : Result :=
  .next (match s.ackEvents.find? fun a => a.port == p && a.handle == h with
    | none => s
    | some a =>
      (({ s with ackEvents := s.ackEvents.eraseP fun a => a.port == p && a.handle == h } : State).acknowledge
        a).endOfEvent)

/-- NO_CLAIMS_REMAIN (R149): the oldest report is taken; a current one that finds the mode QUIESCE changes it to
SETUP. -/
def execNoClaimsRemain (s : State) : Result :=
  .next (match s.drainReports with
    | [] => s
    | current :: rest =>
      let t : State := { s with drainReports := rest }
      if current = true ∧ s.mode = .quiesce then t.drainToSetup else t)

/-- WAIT_EXPIRY (R46): the running wait timer of a WAITING request expires. -/
def execWaitExpiry (p : Port) (h : Handle) (s : State) : Result :=
  .next (match s.slot p h with
    | .waiting _ (some t) =>
      (((s.passTo t).endRequest p h .expired (.expired h)).evaluate (s.itemResources p h)).endOfEvent
    | _ => s)

/-- The phase of a port's HELD claim on a resource. -/
def State.holdPhase (s : State) (p : Port) (x : ResNo) : Option HoldPhase :=
  (s.claimOn p x).bind fun c => match c.state with | .held _ ph => some ph | _ => none

/-- A holding's hold phase becomes OVERTIME (R61). -/
def State.setOvertime (s : State) (p : Port) (x : ResNo) : State :=
  s.setClaims (s.claims.map fun c =>
    if Claim.isHolding p x c then { c with state := .held (c.state.grant.getD 0) .overtime } else c)

/-- HOLD_EXPIRY (R61): the running hold timer of a holding expires; where a claim waits on the resource the holding
begins yielding. -/
def execHoldExpiry (p : Port) (x : ResNo) (s : State) : Result :=
  .next (match s.holdPhase p x with
    | some (.timing t) =>
      let u := (s.passTo t).setOvertime p x
      (if (u.waitQueue x).isEmpty then u
       else (u.beginYield x (Claim.ofPort p)).evaluate (u.yieldLosers x (Claim.ofPort p))).endOfEvent
    | _ => s)

/-- GRACE_EXPIRY (R63): the running grace timer of a holding expires, and the holding is revoked for OVERTIME. -/
def execGraceExpiry (p : Port) (x : ResNo) (s : State) : Result :=
  .next (match s.holdPhase p x with
    | some (.yielding t) =>
      (((s.passTo t).revoke x .overtime (Claim.ofPort p)).evaluate [x]).endOfEvent
    | _ => s)

end Sys2Proof.Machine
end

