-- ==== Sys2Proof/Machine/LineEvents.lean ====
section
/-! DEFINITION. The Line Unit's events and the Claim Table's taking of its reports (Chapter 4). -/

namespace Sys2Proof.Machine

/-! ## The Line Unit -/

/-- The phase record of a LINE resource. -/
def State.phaseRecord (s : State) (x : ResNo) : Option PhaseRecord :=
  match s.kindOf x with
  | some (.line _ _ lu) => some lu
  | _ => none

/-- The Line Unit changes a phase of its own accord, without an order (R74). -/
def State.setPhase (s : State) (x : ResNo) (ph : Phase) : State := s.mapPhase x fun _ lu => { lu with phase := ph }

/-- The report that the expiry of a phase's timer makes, with the expiry time (R74, R87, R90). -/
def Phase.expiry : Phase → Option (Time × LineReportKind)
  | .guard t => some (t, .guardElapsed)
  | .verify t => some (t, .verifyTimeout)
  | .engage t => some (t, .engageTimeout)
  | _ => none

/-- PHASE_TIMER_EXPIRY (R74): the running phase timer of a resource expires, its phase ends and makes its report. -/
def execPhaseTimerExpiry (x : ResNo) (s : State) : Result :=
  .next (match (s.phaseRecord x).bind fun lu => lu.phase.expiry with
    | some (t, k) => ((s.passTo t).setPhase x .quiet).report x k
    | none => s)

/-- CONFIRM_INPUT_CHANGE (R78). -/
def execConfirmInputChange (c : ConfNo) (high : Bool) (s : State) : Result :=
  .next (s.setConfirm c (s.confirmInputs[c].rawChange high s.now))

/-- What a phase does when the filtered level of its input comes to the engaged (`true`) or the released level:
the report made and the phase after it (R81, R87, R90, R93). -/
def Phase.onLevel : Phase → Bool → Option (LineReportKind × Phase)
  | .verify _, false => some (.releaseSeen, .quiet)
  | .engage _, true => some (.engagedSeen, .watch)
  | .watch, false => some (.confirmationLost, .quiet)
  | _, _ => none

/-- A resource's phase meets a change of the filtered level of confirm input `c` (R78, R81). -/
def State.meetLevel (c : ConfNo) (s : State) (x : ResNo) : State :=
  match s.kindOf x with
  | some (.line d _ lu) =>
    match d.confirm with
    | some b =>
      if b.input = c then
        match lu.phase.onLevel (s.engagedLevel b) with
        | some (k, ph) => (s.setPhase x ph).report x k
        | none => s
      else s
    | none => s
  | _ => s

/-- CONFIRM_FILTER_CHANGE (R78): the filtered level takes a raw level that has stood for the filter time, and the
phases of the resources bound to the input meet it. -/
def execConfirmFilterChange (c : ConfNo) (s : State) : Result :=
  .next (match s.confirmInputs[c].due s.confirmFilterUnits with
    | none => s
    | some t =>
      (List.finRange 64).foldl (State.meetLevel c) ((s.passTo t).setConfirm c s.confirmInputs[c].settle))

/-! ## Taking reports (R77) -/

/-- The oldest report about a resource, where it is of the kind named (R77: the reports about one resource are
taken in the order in which they were made). -/
def State.oldestReport (s : State) (x : ResNo) (k : LineReportKind) : Option LineReport :=
  (s.lineReports.find? fun r => r.resource == x).filter fun r => r.kind == k

/-- The oldest report about a resource leaves the reports waiting. -/
def State.dropReport (s : State) (x : ResNo) : State :=
  s.setLineReports (s.lineReports.eraseP fun r => r.resource == x)

/-- The Claim Table takes the oldest report about a resource, where it is of the kind named: a current one has the
effect `act`, another has none (R77). -/
def State.takeReport (s : State) (x : ResNo) (k : LineReportKind) (act : State → State) : State :=
  match s.oldestReport x k with
  | none => s
  | some r => (if r.current then act (s.dropReport x) else s.dropReport x).endOfEvent

/-- The LINE resource's state (R7). -/
def State.lineState (s : State) (x : ResNo) : Option LineState :=
  match s.kindOf x with
  | some (.line _ st _) => some st
  | _ => none

/-- The port whose claim is assigned on a LINE resource (R85). -/
def State.assignedPort (s : State) (x : ResNo) : Option Port := (s.assigned x).head?.map fun c => c.owner

/-- A current "guard elapsed" (R83, R85). -/
def State.onGuardElapsed (x : ResNo) (s : State) : State :=
  match s.lineState x, s.assignedPort x with
  | some .cooling, _ => s.setLineState x .vacant
  | some .guard, some k => (s.engageOrVerify x k).evaluate [x]
  | _, _ => s

/-- A current "release seen" (R88). -/
def State.onReleaseSeen (x : ResNo) (s : State) : State :=
  match s.lineState x, s.assignedPort x with
  | some .verify, some k => (((s.drivePattern x k).startEngage x).setLineState x .engage).evaluate [x]
  | _, _ => s

/-- A confirmation fault on a reserved resource: it becomes FAULTED with its idle pattern driven, the request that
had reserved it is failed, and the resources are evaluated (R89, R92, R93). -/
def State.confirmationFault (s : State) (x : ResNo) (reason : FaultReason) : State :=
  let rs := s.requestsWith (Claim.reservedOn x)
  ((s.faultResource x reason).failAll rs x .fault).evaluate (x :: s.itemsOfAll rs)

/-- A current "verify timeout" (R89). -/
def State.onVerifyTimeout (x : ResNo) (s : State) : State :=
  match s.lineState x with
  | some .verify => s.confirmationFault x .stuckEngaged
  | _ => s

/-- The request whose claim is reserved on a resource. -/
def State.reservingRequest (s : State) (x : ResNo) : Option (Port × Handle) :=
  (s.requestsWith (Claim.reservedOn x)).head?

/-- The pending item on `x` of an ASSEMBLING request becomes complete, and the request is granted where it was the
last; the LINE resources that thereby leave ENGAGE are evaluated (R37, R39, R91). -/
def State.completeItem (s : State) (p : Port) (h : Handle) (x : ResNo) : State :=
  match s.slot p h with
  | .assembling f pendingItems =>
    if pendingItems.contains x then
      let t := s.setSlot p h (.assembling f (pendingItems.erase x))
      if (pendingItems.erase x).isEmpty then
        (t.grant none p h).evaluate ((s.itemResources p h).filter s.isLineRes)
      else t
    else s
  | _ => s

/-- A current "engaged seen" (R39, R91). -/
def State.onEngagedSeen (x : ResNo) (s : State) : State :=
  match s.lineState x, s.reservingRequest x with
  | some .engage, some (p, h) => s.completeItem p h x
  | _, _ => s

/-- A current "engage timeout" (R92). -/
def State.onEngageTimeout (x : ResNo) (s : State) : State :=
  match s.lineState x with
  | some .engage => s.confirmationFault x .engageTimeout
  | _ => s

/-- A current "confirmation lost" (R66, R93): in HELD the holding is revoked, in ENGAGE the request is failed; the
resource becomes FAULTED in both. -/
def State.onConfirmationLost (x : ResNo) (s : State) : State :=
  match s.lineState x with
  | some .held =>
    ((s.faultResource x .confirmLost).revoke x .confirmLost fun _ => true).evaluate [x]
  | some .engage => s.confirmationFault x .confirmLost
  | _ => s

/-- GUARD_ELAPSED (R83). -/
def execGuardElapsed (x : ResNo) (s : State) : Result := .next (s.takeReport x .guardElapsed (State.onGuardElapsed x))

/-- RELEASE_SEEN (R88). -/
def execReleaseSeen (x : ResNo) (s : State) : Result := .next (s.takeReport x .releaseSeen (State.onReleaseSeen x))

/-- VERIFY_TIMEOUT (R89). -/
def execVerifyTimeout (x : ResNo) (s : State) : Result :=
  .next (s.takeReport x .verifyTimeout (State.onVerifyTimeout x))

/-- ENGAGED_SEEN (R91). -/
def execEngagedSeen (x : ResNo) (s : State) : Result := .next (s.takeReport x .engagedSeen (State.onEngagedSeen x))

/-- ENGAGE_TIMEOUT (R92). -/
def execEngageTimeout (x : ResNo) (s : State) : Result :=
  .next (s.takeReport x .engageTimeout (State.onEngageTimeout x))

/-- CONFIRMATION_LOST (R93). -/
def execConfirmationLost (x : ResNo) (s : State) : Result :=
  .next (s.takeReport x .confirmationLost (State.onConfirmationLost x))

/-! ## Pin reset -/

/-- A filtered input as a pin reset leaves it: the filtered level is the raw level, timed from now (R80, R117). -/
def InputFilter.atReset (f : InputFilter) (now : Time) : InputFilter :=
  { raw := f.raw, changed := now, filtered := f.raw }

/-- A receive line as a pin reset leaves it: a space run is timed from now (R180). -/
def RxLine.atReset (l : RxLine) (now : Time) : RxLine :=
  match l with
  | .mark => .mark
  | .space _ _ => .space now false

/-- PIN_RESET (R18, R54, R80, R99, R117, R125, R127, R159, R180): the pins keep their raw levels. -/
def execPinReset (s : State) : Result :=
  .next (State.afterReset s.now (Vector.ofFn fun c => s.confirmInputs[c].atReset s.now)
    (Vector.ofFn fun p => s.severInputs[p].atReset s.now) (Vector.ofFn fun p => s.ports[p].line.atReset s.now)
    s.pending)

end Sys2Proof.Machine
end

