-- ==== Sys2Proof/Machine/Clock.lean ====
section
/-! DEFINITION. The part's clock: the running timers with the commands that are their expiries, and the tick that the
block makes when no command waits (log entry 4). -/

namespace Sys2Proof.Machine

/-- The timers of one port: keepalive window (R112), sever filter (R117), break detector (R177), silence timer
(R165), the end of the reply being sent (R172), wait timers (R46). -/
def State.portTimers (s : State) (p : Port) : List (Time × Instr) :=
  ((s.session p).state.opened.map fun o => (o.windowEnds, Instr.windowExpiry p)).toList ++
  (s.severInputs[p].due Config.severFilterUnits |>.map fun t => (t, Instr.severInputFiltered p)).toList ++
  (match (s.port p).line with
   | .space since false => [(since + Config.breakUnits, Instr.breakDetected p)]
   | _ => []) ++
  ((s.port p).silence.map fun t => (t, Instr.silenceLimit p)).toList ++
  ((s.port p).replyEnds.map fun m => (unitOf m, Instr.replySent p)).toList ++
  (List.finRange 8).flatMap fun h =>
    match s.slot p h with
    | .waiting _ (some t) => [(t, Instr.waitExpiry p h)]
    | _ => []

/-- The timer of a claim: its hold timer or its grace timer (R55). -/
def Claim.timer (c : Claim) : List (Time × Instr) :=
  match c.state with
  | .held _ (.timing t) => [(t, .holdExpiry c.owner c.resource)]
  | .held _ (.yielding t) => [(t, .graceExpiry c.owner c.resource)]
  | _ => []

/-- The phase timer of a resource (R74). -/
def State.phaseTimer (s : State) (x : ResNo) : List (Time × Instr) :=
  (((s.phaseRecord x).bind fun lu => lu.phase.ends).map fun t => (t, Instr.phaseTimerExpiry x)).toList

/-- The filter of a confirm input (R78). -/
def State.confirmTimer (s : State) (c : ConfNo) : List (Time × Instr) :=
  (s.confirmInputs[c].due s.confirmFilterUnits |>.map fun t => (t, Instr.confirmFilterChange c)).toList

/-- Every running timer with its expiry time and the command that is its expiry. -/
def State.timers (s : State) : List (Time × Instr) :=
  (List.finRange 6).flatMap s.portTimers ++ s.claims.flatMap Claim.timer ++
    (List.finRange 64).flatMap s.phaseTimer ++ (List.finRange 16).flatMap s.confirmTimer

/-- The timer that expires first; of those that expire together, the first listed. -/
def firstToExpire : List (Time × Instr) → Option (Time × Instr)
  | [] => none
  | t :: ts =>
    match firstToExpire ts with
    | none => some t
    | some u => if u.1 < t.1 then some u else some t

/-- The expiry whose time has come, where one has. -/
def State.dueEvent (s : State) : Option Instr :=
  match firstToExpire s.timers with
  | some (t, i) => if t ≤ s.now then some i else none
  | none => none

/-- One unit of 10 µs passes. -/
def State.tick (s : State) : State := { s with now := s.now + 1 }

end Sys2Proof.Machine
end

