-- ==== Sys2Proof/Machine/Dispatch.lean ====
section
/-! DEFINITION. The meaning of every command, one arm for each row of spec/opcode_table.json in the table's order. -/

namespace Sys2Proof.Machine

/-- The effect of a command on everything but the queue of commands. -/
def exec (i : Instr) (s : State) : Host.Outcome State Fault Refusal :=
  match i with
  | .join p => Sys2Proof.Machine.execJoin p s
  | .leave p => Sys2Proof.Machine.execLeave p s
  | .touch p => Sys2Proof.Machine.execTouch p s
  | .setRate p => Sys2Proof.Machine.execSetRate p s
  | .claim p => Sys2Proof.Machine.execClaim p s
  | .cancel p => Sys2Proof.Machine.execCancel p s
  | .release p => Sys2Proof.Machine.execRelease p s
  | .fetch p => Sys2Proof.Machine.execFetch p s
  | .sessionInfo p => Sys2Proof.Machine.execSessionInfo p s
  | .resourceInfo p => Sys2Proof.Machine.execResourceInfo p s
  | .holdings p => Sys2Proof.Machine.execHoldings p s
  | .partInfo p => Sys2Proof.Machine.execPartInfo p s
  | .define p => Sys2Proof.Machine.execDefine p s
  | .undefine p => Sys2Proof.Machine.execUndefine p s
  | .setLimits p => Sys2Proof.Machine.execSetLimits p s
  | .setMode p => Sys2Proof.Machine.execSetMode p s
  | .setSupervisor p => Sys2Proof.Machine.execSetSupervisor p s
  | .forceRelease p => Sys2Proof.Machine.execForceRelease p s
  | .disable p => Sys2Proof.Machine.execDisable p s
  | .clearFault p => Sys2Proof.Machine.execClearFault p s
  | .sever p => Sys2Proof.Machine.execSever p s
  | .restart p => Sys2Proof.Machine.execRestart p s
  | .frameComplete p => Sys2Proof.Machine.execFrameComplete p s
  | .silenceLimit p => Sys2Proof.Machine.execSilenceLimit p s
  | .takeRequest p => Sys2Proof.Machine.execTakeRequest p s
  | .replySent p => Sys2Proof.Machine.execReplySent p s
  | .breakDetected p => Sys2Proof.Machine.execBreakDetected p s
  | .frameReport p => Sys2Proof.Machine.execFrameReport p s
  | .windowExpiry p => Sys2Proof.Machine.execWindowExpiry p s
  | .severInputChange p asserted => Sys2Proof.Machine.execSeverInputChange p asserted s
  | .severInputFiltered p => Sys2Proof.Machine.execSeverInputFiltered p s
  | .liveAgain p => Sys2Proof.Machine.execLiveAgain p s
  | .outcomeAcknowledged p h => Sys2Proof.Machine.execOutcomeAcknowledged p h s
  | .noClaimsRemain => Sys2Proof.Machine.execNoClaimsRemain s
  | .waitExpiry p h => Sys2Proof.Machine.execWaitExpiry p h s
  | .holdExpiry p x => Sys2Proof.Machine.execHoldExpiry p x s
  | .graceExpiry p x => Sys2Proof.Machine.execGraceExpiry p x s
  | .phaseTimerExpiry x => Sys2Proof.Machine.execPhaseTimerExpiry x s
  | .confirmInputChange c high => Sys2Proof.Machine.execConfirmInputChange c high s
  | .confirmFilterChange c => Sys2Proof.Machine.execConfirmFilterChange c s
  | .guardElapsed x => Sys2Proof.Machine.execGuardElapsed x s
  | .releaseSeen x => Sys2Proof.Machine.execReleaseSeen x s
  | .verifyTimeout x => Sys2Proof.Machine.execVerifyTimeout x s
  | .engagedSeen x => Sys2Proof.Machine.execEngagedSeen x s
  | .engageTimeout x => Sys2Proof.Machine.execEngageTimeout x s
  | .confirmationLost x => Sys2Proof.Machine.execConfirmationLost x s
  | .pinReset => Sys2Proof.Machine.execPinReset s
  | .characterReceived p c => Sys2Proof.Machine.execCharacterReceived p c s
  | .framingError p => Sys2Proof.Machine.execFramingError p s
  | .receiveLineChange p space startBit => Sys2Proof.Machine.execReceiveLineChange p space startBit s

end Sys2Proof.Machine
end

