-- ==== Sys2Proof/Safety.lean ====
section
/-! DEFINITION. The terms in which claims about the part are stated: when a block takes a request, what an event
leaves alone, and the laws of the manual as invariants of the state. -/

namespace Sys2Proof.Machine

/-! ## Taking a request -/

/-- A request of kind `k`, the frame `f`, stands in port `p`'s check stage and is next to be taken by its owner (R25,
R169, R175). -/
structure State.Offered (s : State) (k : RequestKind) (p : Port) (f : Frame) : Prop where
  standing : (s.port p).checkStage = some f
  kind : f.kind = k.code
  turn : s.mayTake k.owner p = true

/-- The session of port `p` is LIVE or LAPSED and the request carries its incarnation ("open" in the table of
R191). -/
structure State.OpenFor (s : State) (p : Port) (f : Frame) : Prop where
  isOpen : s.isOpen p = true
  current : f.inc = s.incarnation p

/-- The state in which the owning block takes a request: the Session Controller has taken the port's good-frame
reports up to the request's own, and the port is the one served last (R25, R124). -/
def State.taking (s : State) (k : RequestKind) (p : Port) (f : Frame) : State :=
  (s.takeReports p f.stamp).setServed k.owner p

/-- The command by which the owner of a request kind takes a port's request. -/
def RequestKind.command : RequestKind → Port → Instr
  | .join, p => .join p
  | .leave, p => .leave p
  | .touch, p => .touch p
  | .setRate, p => .setRate p
  | .claim, p => .claim p
  | .cancel, p => .cancel p
  | .release, p => .release p
  | .fetch, p => .fetch p
  | .sessionInfo, p => .sessionInfo p
  | .resourceInfo, p => .resourceInfo p
  | .holdings, p => .holdings p
  | .partInfo, p => .partInfo p
  | .define, p => .define p
  | .undefine, p => .undefine p
  | .setLimits, p => .setLimits p
  | .setMode, p => .setMode p
  | .setSupervisor, p => .setSupervisor p
  | .forceRelease, p => .forceRelease p
  | .disable, p => .disable p
  | .clearFault, p => .clearFault p
  | .sever, p => .sever p
  | .restart, p => .restart p

/-- The parameter and the existence check of a request's resource byte: a number above 63 refuses it BAD_PARAMETER, the
number of an undefined resource UNDEFINED_RESOURCE (R1, R191). -/
def State.ChecksTheResource (s : State) (k : RequestKind) (p : Port) (f : Frame) : Prop :=
  let t := (s.taking k p f).endOfServe k.owner
  (63 < (f.byte 0).toNat → exec (k.command p) s = .next (t.place p f .badParameter [] false))
  ∧ ∀ x : ResNo, (f.byte 0).toNat = x.val → s.resource x = none →
      exec (k.command p) s = .next (t.place p f .undefinedResource [] false)

/-- The supervisor requests (R152). -/
def RequestKind.isSupervisor : RequestKind → Bool
  | .define | .undefine | .setLimits | .setMode | .setSupervisor | .forceRelease | .disable | .clearFault | .sever
  | .restart => true
  | _ => false

/-! ## What an event leaves alone -/

/-- The claims, slots, resource records and Line Unit reports are the same. -/
structure State.SameClaimTable (s t : State) : Prop where
  claims : t.claims = s.claims
  slots : t.slots = s.slots
  resources : t.resources = s.resources
  lineReports : t.lineReports = s.lineReports

/-- Supervision's mode, supervisor port and limits are the same. -/
structure State.SameSupervision (s t : State) : Prop where
  mode : t.mode = s.mode
  supervisor : t.supervisor = s.supervisor
  threshold : t.threshold = s.threshold
  recovery : t.recovery = s.recovery
  filterTime : t.filterTime = s.filterTime

/-- The pins and filters of the confirm and sever inputs, the time and the queue of commands are the same. -/
structure State.SameInputs (s t : State) : Prop where
  confirmInputs : t.confirmInputs = s.confirmInputs
  severInputs : t.severInputs = s.severInputs
  now : t.now = s.now
  pending : t.pending = s.pending

/-- Session records, notice queues and Port Interfaces of every port but `p` are the same. -/
def State.SameOtherPorts (s t : State) (p : Port) : Prop :=
  ∀ q, q ≠ p → t.session q = s.session q ∧ t.queue q = s.queue q ∧ t.port q = s.port q

/-- What no event of the Claim Table writes: the sessions, the Port Interfaces, the inputs, the mode and limits, the
pointers, and the events waiting to be taken but for the Line Unit's and the drain's reports. -/
structure State.SameOutsideClaimTable (s t : State) : Prop where
  sessions : t.sessions = s.sessions
  ports : t.ports = s.ports
  confirmInputs : t.confirmInputs = s.confirmInputs
  severInputs : t.severInputs = s.severInputs
  now : t.now = s.now
  pending : t.pending = s.pending
  mode : t.mode = s.mode
  supervisor : t.supervisor = s.supervisor
  threshold : t.threshold = s.threshold
  recovery : t.recovery = s.recovery
  filterTime : t.filterTime = s.filterTime
  servedCT : t.servedCT = s.servedCT
  servedSC : t.servedSC = s.servedSC
  servedNS : t.servedNS = s.servedNS
  servedSV : t.servedSV = s.servedSV
  ackEvents : t.ackEvents = s.ackEvents
  liveReports : t.liveReports = s.liveReports

/-- The slot is WAITING. -/
def Slot.isWaiting : Slot → Bool
  | .waiting _ _ => true
  | _ => false

/-- What the removal of an assigned claim from the resource `x`, whose record was `r` in `s`, has made of it in `u` (R44,
R56, R94, R95): its state, its pattern and its guard, and no current report of a phase that an order has ended (R77). The
other fields of the record are kept. -/
def State.ResourceUnwound (s u : State) (x : ResNo) (r : Resource) : Prop :=
  (∀ sh st, r.kind = .token sh st → st ≠ .faulted →
    u.resource x = some { r with kind := .token sh (if u.assigned x = [] then .vacant else .occupied) })
  ∧ (∀ d lu, r.kind = .line d .guard lu → u.resource x = some { r with kind := .line d .cooling lu }
      ∧ (u.lineReports.filter fun y => y.resource == x) = s.lineReports.filter fun y => y.resource == x)
  ∧ (∀ d lu, r.kind = .line d .verify lu →
      u.resource x = some { r with kind := .line d .vacant { applied := none, phase := .quiet } }
      ∧ ∀ y ∈ u.lineReports, y.resource = x → y.current = false)
  ∧ ∀ d st lu, r.kind = .line d st lu → st = .engage ∨ st = .held →
      u.resource x = some { r with kind := .line d .cooling { applied := none, phase := .guard (s.now + d.guard.toNat) } }
      ∧ ∀ y ∈ u.lineReports, y.resource = x → y.current = false

/-! ## The laws of the manual -/

/-- R20, R22: no more records are in use than the pool holds, and a session has at most one claim on a resource. -/
structure State.PoolLaw (s : State) : Prop where
  room : s.claims.length ≤ Config.poolSize
  oneEach : (s.claims.map fun c => (c.owner, c.resource)).Nodup

/-- R34: an EXCLUSIVE claim in RESERVED or HELD stands alone, and claims that stand together are SHARED. -/
def State.ExclusiveLaw (s : State) : Prop :=
  ∀ x, ∀ c ∈ s.assigned x, ∀ d ∈ s.assigned x, c ≠ d → c.mode = .shared ∧ d.mode = .shared

/-- The requests whose claims stand in a resource's wait queue, oldest first. -/
def State.waitRequests (s : State) (x : ResNo) : List (Port × Option Handle) :=
  (s.waitQueue x).map fun c => (c.owner, c.state.handle)

/-- R32: the requests that wait for two resources stand in one order in both wait queues. -/
def State.WaitOrderLaw (s : State) : Prop :=
  ∀ x y, (s.waitRequests x).filter (fun r => decide (r ∈ s.waitRequests y)) =
    (s.waitRequests y).filter fun r => decide (r ∈ s.waitRequests x)

/-- R131, R133: no two entries of a queue have one key or one sequence number, no number is 0, and the next number
is carried by no entry. -/
structure NoticeQueue.Law (q : NoticeQueue) : Prop where
  keys : (q.entries.map fun e => e.notice.key).Nodup
  seqs : (q.entries.map fun e => e.seq).Nodup
  nonzero : ∀ e ∈ q.entries, e.seq ≠ 0
  next : q.nextSeq ≠ 0
  fresh : ∀ e ∈ q.entries, e.seq ≠ q.nextSeq

/-- R134: the delivered entries of a queue form a run at its head. -/
def NoticeQueue.DeliveredFirst (q : NoticeQueue) : Prop :=
  ∃ n, (∀ e ∈ q.entries.take n, e.delivered = true) ∧ ∀ e ∈ q.entries.drop n, e.delivered = false

/-- R120: a port whose session is IDLE or SEVERED owns no claims, has every slot FREE and an empty queue. -/
def State.ClosedPortLaw (s : State) : Prop :=
  ∀ p, s.isOpen p = false →
    (∀ c ∈ s.claims, c.owner ≠ p) ∧ (∀ h, s.slot p h = .free) ∧ (s.queue p).entries = []

/-- R115: a LAPSED session's miss count lies from 1 to one less than the sever threshold. -/
structure State.MissLaw (s : State) : Prop where
  threshold : 1 ≤ s.threshold
  misses : ∀ p o l, (s.session p).state = .lapsed o l → 1 ≤ l.missCount ∧ l.missCount < s.threshold

/-- R23: every WAITING or RESERVED claim belongs to an open request of its port that names its resource, in the
state its slot says. -/
def Slot.Backs : Slot → Claim → Prop
  | .waiting f _, c => c.state.isWaiting = true ∧ c.resource ∈ f.items.map Item.resource
  | .assembling f _, c => c.state.isReserved = true ∧ c.resource ∈ f.items.map Item.resource
  | _, _ => False

/-- The claims, the slots and the mode agree. R23: the claims with a handle are those of the items of the open requests,
and an open request has an item. R1, R9: a claim's resource is defined. R145, R149: in SETUP no claim exists, and while
a "no claims remain" report is current none exists and the mode is not SERVICE. -/
structure State.TableLaw (s : State) : Prop where
  backed : ∀ c ∈ s.claims, ∀ h, c.state.handle = some h → (s.slot c.owner h).Backs c
  items : ∀ p h, ∀ i ∈ (s.slot p h).items, ∃ c ∈ s.claims, Claim.ofRequest p h c = true ∧ c.resource = i.resource
  open_ : ∀ p h, (s.slot p h).isOpen = true → (s.slot p h).items ≠ []
  defined : ∀ c ∈ s.claims, (s.resource c.resource).isSome = true
  setup : s.mode = .setup → s.claims = []
  drained : true ∈ s.drainReports → s.mode ≠ .service ∧ s.claims = []

/-- A LINE resource applies a drive pattern exactly in ENGAGE and HELD (R75, R96). -/
def Kind.DriveLaw : Kind → Prop
  | .token _ _ => True
  | .line _ .engage lu => lu.applied ≠ none
  | .line _ .held lu => lu.applied ≠ none
  | .line _ _ lu => lu.applied = none

/-- A resource's state agrees with its assigned set. R7: TOKEN VACANT and FAULTED, and LINE VACANT, COOLING and FAULTED,
have no assigned claim; OCCUPIED has one; a LINE resource in GUARD, VERIFY and ENGAGE has one RESERVED claim and in HELD
one HELD claim, EXCLUSIVE. R75: in ENGAGE and HELD the pattern of that claim's port is applied. -/
def Kind.Agrees : Kind → List Claim → Prop
  | .token _ .occupied, as => as ≠ []
  | .token _ _, as => as = []
  | .line _ .guard _, as => ∃ c, as = [c] ∧ c.state.isReserved = true ∧ c.mode = .exclusive
  | .line _ .verify _, as => ∃ c, as = [c] ∧ c.state.isReserved = true ∧ c.mode = .exclusive
  | .line _ .engage lu, as => ∃ c, as = [c] ∧ c.state.isReserved = true ∧ c.mode = .exclusive ∧ lu.applied = some c.owner
  | .line _ .held lu, as => ∃ c, as = [c] ∧ c.state.isHeld = true ∧ c.mode = .exclusive ∧ lu.applied = some c.owner
  | .line _ _ _, as => as = []

/-- The states of the resources agree with the claims (R7, R34, R75); a SHARED claim stands on a shareable resource only
(R28); an item of an ASSEMBLING request that is pending no longer is that of a TOKEN resource or of a LINE resource in
ENGAGE (R39). -/
structure State.AssignedLaw (s : State) : Prop where
  shared : ∀ c ∈ s.claims, c.mode = .shared → ∀ k, s.kindOf c.resource = some k → k.isShareable = true
  agrees : ∀ x k, s.kindOf x = some k → k.Agrees (s.assigned x)
  complete : ∀ p h f pend, s.slot p h = .assembling f pend → ∀ i ∈ f.items, i.resource ∉ pend →
    ∀ d st lu, s.kindOf i.resource = some (.line d st lu) → st = .engage

/-- A LINE resource is in ENGAGE or HELD, where it drives a drive pattern (R75). -/
def State.drives (s : State) (x : ResNo) : Bool :=
  match s.kindOf x with
  | some (.line _ .engage _) => true
  | some (.line _ .held _) => true
  | _ => false

/-- A LINE resource's state keeps the guard interval counted from a moment (R82): in COOLING and GUARD its guard timer
ends no earlier than the interval after that moment, or the interval has passed; in VACANT and VERIFY the interval has
passed; FAULTED runs no timer, and a new guard is started from it; and a current "guard elapsed" stands only where it has
passed. -/
def LineState.Guards : LineState → Phase → (since interval now : Time) → Prop
  | .vacant, _, since, interval, now => since + interval ≤ now
  | .verify, _, since, interval, now => since + interval ≤ now
  | .cooling, .guard ends, since, interval, _ => since + interval ≤ ends
  | .guard, .guard ends, since, interval, _ => since + interval ≤ ends
  | .cooling, .quiet, since, interval, now => since + interval ≤ now
  | .guard, .quiet, since, interval, now => since + interval ≤ now
  | .faulted _, .quiet, _, _, _ => True
  | _, _, _, _, _ => False

/-- A resource is no LINE resource, or has driven no drive pattern since a moment and keeps its guard interval counted
from it (R82). -/
def State.GuardedSince (s : State) (x : ResNo) (since : Time) : Prop :=
  since ≤ s.now ∧ ∀ d st lu, s.kindOf x = some (.line d st lu) →
    st.Guards lu.phase since d.guard.toNat s.now
    ∧ ∀ r ∈ s.lineReports, r.resource = x → r.kind = .guardElapsed → r.current = true → since + d.guard.toNat ≤ s.now

/-- R75: every LINE resource applies its idle pattern but in ENGAGE and HELD. -/
def State.DriveLaw (s : State) : Prop := ∀ x k, s.kindOf x = some k → k.DriveLaw

/-- R3, R4, R6: the line fields of a definition lie within their limits: no pattern has a 1 at or above the width, and
each drive pattern differs from the idle pattern, so that they differ on a line of the group. -/
structure LineDef.Valid (d : LineDef) : Prop where
  width : 1 ≤ d.width.toNat ∧ d.width.toNat ≤ 8
  lines : d.firstLine.toNat + d.width.toNat ≤ 32
  fits : ∀ i, d.width.toNat ≤ i → d.idle.getLsbD i = false ∧ ∀ k : Port, d.drive[k].getLsbD i = false
  patterns : ∀ k : Port, d.drive[k] ≠ d.idle
  timeout : ∀ b, d.confirm = some b → 1 ≤ b.timeout.toNat ∧ b.timeout.toNat ≤ 5000

/-- R3, R6: no line lies in the groups of two defined LINE resources, and no confirm input is bound to two. -/
structure State.DefinitionLaw (s : State) : Prop where
  valid : ∀ x d, s.lineDef x = some d → d.Valid
  lines : ∀ x y d e, x ≠ y → s.lineDef x = some d → s.lineDef y = some e →
    ∀ n, d.covers n = true → e.covers n = false
  inputs : ∀ x y d e b c, x ≠ y → s.lineDef x = some d → s.lineDef y = some e → d.confirm = some b → e.confirm = some c →
    b.input ≠ c.input

/-! ## Runs and answers -/

/-- Several commands run one after the other. -/
def runCommands : List Instr → State → Host.Outcome State Fault Refusal
  | [], s => .next s
  | i :: is, s =>
    match exec i s with
    | .next t => runCommands is t
    | .fault r => .fault r
    | .refused r => .refused r

/-- Between `s` and `u` the request `f` of port `p` has been answered with a status and a reply body: its reply, built
from `u`, stands at the tail of the reply buffer, and the check stage is empty (R170, R171). -/
structure State.Answered (s u : State) (p : Port) (f : Frame) (st : Status) (body : List Byte) : Prop where
  stage : (u.port p).checkStage = none
  reply : ∃ r, (u.port p).replies = (s.port p).replies ++ [r] ∧
    r.bytes = replyFrame (f.kind + 0x80) f.tag (u.incarnation p) st (u.summary p) body

/-- The events waiting to be taken by the Claim Table, but for the Line Unit's, are the same. -/
structure State.SameEvents (s t : State) : Prop where
  ackEvents : t.ackEvents = s.ackEvents
  liveReports : t.liveReports = s.liveReports

/-- The grant number of a resource, 0 where it is undefined (R8). -/
def State.grantOf (s : State) (x : ResNo) : Word16 := ((s.resource x).map Resource.grantNumber).getD 0

/-- The hold phase of a claim granted now on a resource (R60). -/
def State.holdAt (s : State) (x : ResNo) : HoldPhase := s.holdStart (((s.resource x).map Resource.holdLimit).getD 0)

/-- The claim of a request that has been granted on its resource (R8, R40). -/
def State.granted (s : State) (c : Claim) : Claim :=
  { c with state := .held (s.grantOf c.resource + 1) (s.holdAt c.resource) }

/-- An undelivered entry of port `p`'s queue carries the notice. -/
def State.HasNotice (s : State) (p : Port) (n : Notice) : Prop :=
  ∃ e ∈ (s.queue p).entries, e.notice = n ∧ e.delivered = false

end Sys2Proof.Machine
end

