-- ==== Sys2Proof/Certificates/Slice0/Obligations.lean ====
section
/-! DEFINITION. The statements for the provers. Each docstring says which rule of the manual it formalises, or which
entry of the assumption log it rests on. -/

open Sys2Proof Sys2Proof.Machine

/-! ## The step, the clock and the reset -/

/-- The model's step (log entry 5): the command at the front of the queue is run with the queue's rest. -/
def Obligations.StepRunsFrontCommand : Prop :=
  ∀ (c : Instr) (rest : List Instr) (s : State), s.pending = c :: rest → step s = exec c { s with pending := rest }

/-- The model's choice (log entries 4 and 5): with no command waiting, the timer expiry that is due first is taken, and
where none is due one unit of time passes. The timers are those the manual runs, and no others: keepalive windows (R112),
sever filters (R117), break detectors (R177), silence timers (R165), the ends of the replies being sent (R172, log entry
13), wait timers (R46), hold and grace timers (R55), phase timers (R74) and confirm filters (R78). -/
def Obligations.EmptyQueueStepsTheClock : Prop :=
  (∀ s : State, s.pending = [] →
    (∀ i, s.dueEvent = some i → step s = exec i s ∧ ∃ t, (t, i) ∈ s.timers ∧ t ≤ s.now ∧ ∀ u ∈ s.timers, t ≤ u.1)
    ∧ (s.dueEvent = none → step s = .next { s with now := s.now + 1 } ∧ ∀ u ∈ s.timers, s.now < u.1))
  ∧ ∀ (s : State) (t : Time) (i : Instr), (t, i) ∈ s.timers ↔
      (∃ p o, (s.session p).state.opened = some o ∧ t = o.windowEnds ∧ i = .windowExpiry p)
      ∨ (∃ p : Port, s.severInputs[p].raw ≠ s.severInputs[p].filtered ∧ t = s.severInputs[p].changed + 100
          ∧ i = .severInputFiltered p)
      ∨ (∃ p since, (s.port p).line = .space since false ∧ t = since + 1000 ∧ i = .breakDetected p)
      ∨ (∃ p, (s.port p).silence = some t ∧ i = .silenceLimit p)
      ∨ (∃ p b r rest, (s.port p).begins = some b ∧ (s.port p).replies = r :: rest
          ∧ t = unitOf (b + r.bytes.length * (10 * (s.port p).rate.bitMoments)) ∧ i = .replySent p)
      ∨ (∃ p h f, s.slot p h = .waiting f (some t) ∧ i = .waitExpiry p h)
      ∨ (∃ c ∈ s.claims, ∃ g, c.state = .held g (.timing t) ∧ i = .holdExpiry c.owner c.resource)
      ∨ (∃ c ∈ s.claims, ∃ g, c.state = .held g (.yielding t) ∧ i = .graceExpiry c.owner c.resource)
      ∨ (∃ x d st a ph, s.kindOf x = some (.line d st { applied := a, phase := ph })
          ∧ (ph = .guard t ∨ ph = .verify t ∨ ph = .engage t) ∧ i = .phaseTimerExpiry x)
      ∨ ∃ c : ConfNo, s.confirmInputs[c].raw ≠ s.confirmInputs[c].filtered
          ∧ t = s.confirmInputs[c].changed + s.filterTime * 10 ∧ i = .confirmFilterChange c

/-- Every command of every operand is carried out in every state; none changes the queue of commands, and time never
runs back (log entries 4 and 5). -/
def Obligations.CommandsKeepQueueAndTime : Prop :=
  ∀ (i : Instr) (s : State), ∃ t, exec i s = .next t ∧ t.pending = s.pending ∧ s.now ≤ t.now

/-- What pin reset leaves: R54 (claims, slots, queues, pointer), R18, R99 (resources, lines), R80, R117 (filtered
levels), R125 (sessions), R127 (notices), R159 (Supervision), R169 (the other pointers), R180 (ports, TXDn at mark). Last
line, the model's choice (log entry 16): the time and the queue of commands are kept. -/
def Obligations.PinResetState : Prop :=
  ∀ s : State, ∃ t, exec .pinReset s = .next t
    ∧ t.claims = [] ∧ t.freeCount = 192 ∧ (∀ p h, t.slot p h = .free)
    ∧ t.servedCT = 5 ∧ t.servedSC = 5 ∧ t.servedNS = 5 ∧ t.servedSV = 5
    ∧ (∀ x, t.resource x = none ∧ t.waitQueue x = [] ∧ t.assigned x = []) ∧ (∀ n, t.lineLevel n = .highImpedance)
    ∧ (∀ c : ConfNo, t.confirmInputs[c] =
        { raw := s.confirmInputs[c].raw, changed := s.now, filtered := s.confirmInputs[c].raw })
    ∧ (∀ p : Port, t.severInputs[p] =
        { raw := s.severInputs[p].raw, changed := s.now, filtered := s.severInputs[p].raw })
    ∧ (∀ p, t.session p = { incarnation := 0, state := .idle })
    ∧ (∀ p, t.queue p = { entries := [], nextSeq := 1, incarnation := 0 } ∧ t.attention p = false)
    ∧ t.mode = .setup ∧ t.supervisor = 0 ∧ t.threshold = 3 ∧ t.recovery = 2 ∧ t.filterTime = 10
    ∧ (∀ p, (t.port p).rate = .r115200 ∧ (t.port p).pendingRate = none ∧ (t.port p).rx = .hunt
        ∧ (t.port p).silence = none ∧ (t.port p).inbound = [] ∧ (t.port p).checkStage = none
        ∧ (t.port p).replies = [] ∧ (t.port p).cache = none ∧ (t.port p).character = none
        ∧ (t.port p).goodFrames = [] ∧ (t.port p).reports = []
        ∧ (t.port p).begins = none ∧ (t.port p).lastChar = none ∧ t.txd p = .high
        ∧ ((s.port p).line = .mark → (t.port p).line = .mark)
        ∧ (∀ since b, (s.port p).line = .space since b → (t.port p).line = .space s.now false))
    ∧ t.lineReports = [] ∧ t.ackEvents = [] ∧ t.liveReports = [] ∧ t.drainReports = []
    ∧ t.now = s.now ∧ t.pending = s.pending

/-! ## Taking, checking and answering requests -/

/-- R25, R169: a block takes the request of the first offering port after the port it served last, which becomes the
port served last; no other block's pointer moves. Last clause, the model's choice (log entry 7): a request command that
finds no such request to take changes nothing. -/
def Obligations.BlocksServePortsInTurn : Prop :=
  (∀ (s : State) (o : Owner) (p : Port), o ≠ .portInterface →
    (s.mayTake o p = true ↔
      s.offers o p = true ∧ ∃ i < 6, portAfter (s.served o) i = p ∧ ∀ j < i, s.offers o (portAfter (s.served o) j) = false))
  ∧ (∀ (k : RequestKind) (p : Port) (f : Frame) (s : State), s.Offered k p f →
      ∃ u, exec (k.command p) s = .next u ∧ (k.owner ≠ .portInterface → u.served k.owner = p)
        ∧ ∀ o, o ≠ .portInterface → o ≠ k.owner → u.served o = s.served o)
  ∧ ∀ (k : RequestKind) (p : Port) (s : State), (∀ f, ¬ s.Offered k p f) → exec (k.command p) s = .next s

/-- R104: the session check of every request but JOIN, with the reply it gives. R152: a supervisor request from another port
is refused NOT_PERMITTED. R144, R146: in a mode that does not allow it a request is refused WRONG_MODE. -/
def Obligations.SessionPermissionAndModeRefusals : Prop :=
  (∀ (k : RequestKind) (p : Port) (f : Frame) (s : State), s.Offered k p f → k ≠ .join →
    let t := (s.taking k p f).endOfServe k.owner
    ((s.session p).state = .idle → k ≠ .partInfo → exec (k.command p) s = .next (t.place p f .noSession [] false))
    ∧ (∀ r, (s.session p).state = .severed r →
        exec (k.command p) s = .next (t.place p f .sessionSevered [r.reason.code] false))
    ∧ (s.isOpen p = true → f.inc ≠ s.incarnation p →
        exec (k.command p) s = .next (t.place p f .staleSession [] false)))
  ∧ (∀ (k : RequestKind) (p : Port) (f : Frame) (s : State), s.Offered k p f → s.OpenFor p f →
    let t := (s.taking k p f).endOfServe k.owner
    (k.isSupervisor = true → p ≠ s.supervisor → exec (k.command p) s = .next (t.place p f .notPermitted [] false))
    ∧ (k = .claim → s.mode ≠ .service → exec (k.command p) s = .next (t.place p f .wrongMode [] false))
    ∧ (p = s.supervisor → k = .define ∨ k = .undefine ∨ k = .setLimits → s.mode ≠ .setup →
        exec (k.command p) s = .next (t.place p f .wrongMode [] false))
    ∧ (p = s.supervisor → k = .setMode → (s.mode = .setup ∧ f.byte 0 = 2) ∨ (s.mode ≠ .setup ∧ f.byte 0 = 0) →
        exec (k.command p) s = .next (t.place p f .wrongMode [] false)))

/-- R170, R171: every request that its owner takes gets exactly one reply, at the tail of its port's reply buffer, and no
other port's reply buffer, check stage or rate changes. R26, R191: it is refused, and then nothing else changes but for
the taking of the request, with the good-frame reports taken before it (log entry 6) and the end of the Claim Table's event
(R50), or it is executed; R173: an executed request replaces the entry of the reply cache, and a refusal keeps it. -/
def Obligations.RequestsAreAnsweredOnce : Prop :=
  ∀ (k : RequestKind) (p : Port) (f : Frame) (s : State), s.Offered k p f → ∃ u st body, exec (k.command p) s = .next u
    ∧ s.Answered u p f st body
    ∧ (∀ q, q ≠ p → (u.port q).replies = (s.port q).replies ∧ (u.port q).checkStage = (s.port q).checkStage
        ∧ (u.port q).rate = (s.port q).rate ∧ (u.port q).pendingRate = (s.port q).pendingRate)
    ∧ ((st.code.toNat ≤ 2
          ∧ ∀ y ∈ (u.port p).replies.getLast?,
              (u.port p).cache = some { kind := f.kind, tag := f.tag, inc := f.inc, reply := y.bytes })
        ∨ (0x10 ≤ st.code.toNat ∧ (body = [] ∨ st = .sessionSevered)
          ∧ u = ((s.taking k p f).endOfServe k.owner).place p f st body false
          ∧ s.SameClaimTable u ∧ s.SameSupervision u ∧ s.SameInputs u ∧ s.SameOtherPorts u p ∧ s.SameEvents u
          ∧ u.queue p = s.queue p ∧ u.isOpen p = s.isOpen p ∧ u.isLive p = s.isLive p ∧ u.incarnation p = s.incarnation p
          ∧ (u.port p).cache = (s.port p).cache ∧ (u.port p).inbound = (s.port p).inbound
          ∧ (u.port p).rate = (s.port p).rate ∧ (u.port p).pendingRate = (s.port p).pendingRate))

/-- R28, R29: the checks of a CLAIM that has passed R27, in their order; the first that fails decides the refusal, which
changes nothing but what R191 says. First clause, the parameter check of R27: a handle above 7, an item count of 0 or above
4 or other than that of the items carried, a resource number above 63 and a mode other than 0 and 1 are BAD_PARAMETER. -/
def Obligations.ClaimChecksInOrder : Prop :=
  (∀ (p : Port) (f : Frame) (s : State), s.Offered .claim p f → s.OpenFor p f → s.mode = .service →
    7 < (f.byte 0).toNat ∨ (f.byte 3).toNat = 0 ∨ 4 < (f.byte 3).toNat ∨ (f.byte 3).toNat ≠ f.itemCount
      ∨ (∃ b ∈ f.itemBytes, 63 < b.1.toNat ∨ (b.2 ≠ 0 ∧ b.2 ≠ 1)) →
    exec (.claim p) s = .next (((s.taking .claim p f).endOfEvent).place p f .badParameter [] false))
  ∧ ∀ (p : Port) (f : Frame) (s : State), s.Offered .claim p f → s.OpenFor p f → s.mode = .service →
    (f.byte 0).toNat ≤ 7 → 1 ≤ (f.byte 3).toNat → (f.byte 3).toNat ≤ 4 → (f.byte 3).toNat = f.itemCount →
    (∀ b ∈ f.itemBytes, b.1.toNat ≤ 63 ∧ (b.2 = 0 ∨ b.2 = 1)) →
    let refused := fun st => exec (.claim p) s = .next (((s.taking .claim p f).endOfEvent).place p f st [] false)
    if ∃ i ∈ f.items, s.resource i.resource = none then refused .undefinedResource
    else if ∃ i ∈ f.items, i.mode = .shared ∧ ∀ k, s.kindOf i.resource = some k → k.isShareable = false then
      refused .badParameter
    else if ∃ i ∈ f.items, ∃ k, s.kindOf i.resource = some k ∧ k.isFaulted = true then refused .resourceFaulted
    else if s.slot p (handleOf (f.byte 0)) ≠ .free then refused .handleInUse
    else if ¬ (f.items.map fun i => i.resource).Nodup then refused .duplicate
    else if ∃ i ∈ f.items, ∃ c ∈ s.claims, c.owner = p ∧ c.resource = i.resource then refused .duplicate
    else if ∃ i ∈ f.items, ∃ e ∈ (s.queue p).entries, e.notice.revokes i.resource = true then
      refused .revocationPending
    else if s.freeCount < f.items.length then refused .noRoom
    else ∃ u st body, exec (.claim p) s = .next u ∧ s.Answered u p f st body ∧ (st = .granted ∨ st = .accepted)

/-- TOUCH (R110), SESSION_INFO (R124), PART_INFO (R158), RESOURCE_INFO (R17) and HOLDINGS (R51) answer OK with the body
fields of R192, byte by byte, and change nothing but the answering port; the Claim Table's may end in a "no claims remain"
report (R50). RESOURCE_INFO lists the assigned claims in ascending port order and the waiting ones oldest first. HOLDINGS
reports the port's claims from the start resource upward, in ascending resource order, up to 16, and the continuation is
the resource number after the last one reported where further ones exist, 0xFF otherwise. R17, R51: a resource number above
63 is refused BAD_PARAMETER, and by RESOURCE_INFO an undefined one UNDEFINED_RESOURCE. -/
def Obligations.ReadsAnswerAndChangeNothing : Prop :=
  (∀ (p : Port) (f : Frame) (s : State),
    (s.Offered .touch p f → s.OpenFor p f →
      exec (.touch p) s = .next ((s.taking .touch p f).place p f .ok [] true))
    ∧ (s.Offered .sessionInfo p f → s.OpenFor p f → ∃ o,
        ((s.taking .sessionInfo p f).session p).state.opened = some o
        ∧ ((s.taking .sessionInfo p f).sessionInfoBody p o).length = 30
        ∧ exec (.sessionInfo p) s = .next ((s.taking .sessionInfo p f).place p f .ok
            ((s.taking .sessionInfo p f).sessionInfoBody p o) true))
    ∧ (s.Offered .partInfo p f → (s.session p).state = .idle ∨ s.OpenFor p f →
        exec (.partInfo p) s = .next ((s.taking .partInfo p f).place p f .ok
          [byteOf p, s.mode.code, byteOf s.supervisor, byteOf s.freeCount, byteOf s.threshold, byteOf s.recovery,
           byteOf s.filterTime] true))
    ∧ (∀ r, s.Offered .resourceInfo p f → s.OpenFor p f → (f.byte 0).toNat ≤ 63 →
        s.resource (resOf (f.byte 0)) = some r →
        exec (.resourceInfo p) s = .next (((s.taking .resourceInfo p f).endOfEvent).place p f .ok
          (s.resourceInfoBody (resOf (f.byte 0)) r) true)
        ∧ (s.resourceInfoBody (resOf (f.byte 0)) r).length =
            (if r.kind.isLine then 32 else 17) + 5 * (s.assigned (resOf (f.byte 0))).length
              + 3 * (s.waitQueue (resOf (f.byte 0))).length)
    ∧ (s.Offered .resourceInfo p f → s.OpenFor p f → s.ChecksTheResource .resourceInfo p f)
    ∧ (s.Offered .holdings p f → s.OpenFor p f → (f.byte 0).toNat ≤ 63 →
        exec (.holdings p) s = .next (((s.taking .holdings p f).endOfEvent).place p f .ok
          (s.holdingsBody p (f.byte 0).toNat) true)
        ∧ (s.holdingsBody p (f.byte 0).toNat).length = 2 + 6 * min 16 (s.claimsFrom p (f.byte 0).toNat).length)
    ∧ (s.Offered .holdings p f → s.OpenFor p f → 63 < (f.byte 0).toNat →
        exec (.holdings p) s = .next (((s.taking .holdings p f).endOfEvent).place p f .badParameter [] false)))
  ∧ (∀ (s : State) (p : Port) (o : OpenSession),
      let head := fun code => [code, s.incarnation p] ++ wordBytes o.clientId ++ wordBytes o.keepalive ++
        wordBytes (BitVec.ofNat 16 ((o.windowEnds - s.now + 99) / 100))
      let tail := (List.finRange 8).flatMap (fun h =>
          match s.slot p h with
          | .free => [0, 0]
          | .waiting fl _ => [1, byteOf fl.items.length]
          | .assembling fl _ => [2, byteOf fl.items.length]
          | .done _ .granted => [3, 0]
          | .done _ .expired => [3, 1]
          | .done _ .failed => [3, 2]
          | .done _ .withdrawn => [3, 3]) ++
        [byteOf (s.claims.countP fun c => c.owner == p && c.state.isHeld), byteOf (s.queue p).entries.length,
         byteOf ((s.queue p).entries.countP fun e => !e.delivered)]
      ((s.session p).state = .live o → s.sessionInfoBody p o = head 1 ++ [0, 0, 0] ++ tail)
      ∧ ∀ l, (s.session p).state = .lapsed o l →
          s.sessionInfoBody p o = head 2 ++ [byteOfBool l.frameSeen, byteOf l.missCount, byteOf l.streak] ++ tail)
  ∧ (∀ (s : State) (x : ResNo) (r : Resource), ∃ as : List Claim, as.Perm (s.assigned x)
      ∧ as.Pairwise (fun c d => c.owner.val ≤ d.owner.val)
      ∧ let common := fun share => wordBytes r.label ++ [share] ++ wordBytes r.holdLimit ++ wordBytes r.yieldGrace
        let claims := byteOf as.length :: as.flatMap (fun c =>
            [byteOf c.owner, c.mode.code] ++
              (match c.state with
               | .held g _ => 2 :: wordBytes g
               | _ => [1, 0, 0])) ++
          byteOf (s.waitQueue x).length :: (s.waitQueue x).flatMap fun c =>
            [byteOf c.owner, byteOf (c.state.handle.getD 0), c.mode.code]
        (∀ sh st, r.kind = .token sh st → s.resourceInfoBody x r =
          [byteOf x, 0] ++ common (byteOfBool sh) ++ [st.code] ++ wordBytes r.grantNumber
            ++ [if st = .faulted then 4 else 0] ++ [0, 0] ++ claims)
        ∧ (∀ d st lu, r.kind = .line d st lu → s.resourceInfoBody x r =
          [byteOf x, 1] ++ common 0 ++ [d.firstLine, d.width, d.idle] ++ (List.finRange 6).map (fun k => d.drive[k])
            ++ wordBytes d.guard
            ++ (match d.confirm with
                | none => [0xFF, 0xFF, 0, 0]
                | some b => [byteOf b.input, byteOfBool b.engagedHigh] ++ wordBytes b.timeout)
            ++ [st.code] ++ wordBytes r.grantNumber
            ++ [match st with | .faulted y => y.code | _ => 0]
            ++ wordBytes (BitVec.ofNat 16
                (match lu.phase with
                 | .guard ends => if st = .cooling ∨ st = .guard then ends - s.now else 0
                 | _ => 0))
            ++ claims))
  ∧ (∀ (s : State) (p : Port) (start : Nat),
    (∀ c, c ∈ s.claimsFrom p start ↔ c ∈ s.claims ∧ c.owner = p ∧ start ≤ c.resource.val)
    ∧ (s.claimsFrom p start).Pairwise (fun c d => c.resource.val ≤ d.resource.val)
    ∧ s.holdingsBody p start =
        [byteOf (min 16 (s.claimsFrom p start).length), continuation (s.claimsFrom p start)] ++
        ((s.claimsFrom p start).take 16).flatMap (fun c =>
          [byteOf c.resource, c.mode.code] ++
            (match c.state with
             | .waiting h => [0, byteOf h, 0, 0]
             | .reserved h => [1, byteOf h, 0, 0]
             | .held g ph => [2, ph.code] ++ wordBytes g))
    ∧ ((s.claimsFrom p start).length ≤ 16 → continuation (s.claimsFrom p start) = 0xFF)
    ∧ ∀ h : 16 < (s.claimsFrom p start).length,
        continuation (s.claimsFrom p start) = byteOf (((s.claimsFrom p start)[15]'(by omega)).resource.val + 1))

/-! ## Frames -/

/-- R164: the CRC, bit by bit, over LENGTH through the last body byte, sent low byte first, with the manual's check. -/
def Obligations.FramesCarryTheCrc : Prop :=
  crc [] = 0xFFFF
  ∧ (∀ bytes b, crc (bytes ++ [b]) =
      (List.range 8).foldl
        (fun (r : Word16) i => if (r.getLsbD 0 ^^ b.getLsbD i) = true then (r >>> 1) ^^^ 0xA001 else r >>> 1) (crc bytes))
  ∧ (∀ content : List Byte, lineFrame content =
      0x5A :: byteOf content.length :: content ++
        [Word16.low (crc (byteOf content.length :: content)), Word16.high (crc (byteOf content.length :: content))])
  ∧ crc [0x31, 0x32, 0x33, 0x34, 0x35, 0x36, 0x37, 0x38, 0x39] = 0x4B37

/-- R185: SUMMARY holds the session state in bits 7 and 6, the supervisor role in bit 5, and the undelivered count, at
most 31, in bits 4 to 0, which are 0 exactly when the attention output is negated; R171, R182: the reply frame around
it. The premise is the law of R120 for queues. -/
def Obligations.SummaryDescribesThePort : Prop :=
  ∀ (s : State) (p : Port), (s.isOpen p = false → (s.queue p).entries = []) →
    (s.summary p) >>> 6 = (s.session p).state.code
    ∧ ((s.summary p).getLsbD 5 = true ↔ s.supervisor = p)
    ∧ ((s.summary p) &&& 0x1F).toNat = min 31 (s.queue p).undelivered
    ∧ ((s.summary p) &&& 0x1F = 0 ↔ s.attention p = false)
    ∧ ∀ kind tag inc st (body : List Byte), replyFrame kind tag inc st (s.summary p) body =
        lineFrame ([kind, tag, inc, st.code, s.summary p] ++ body)

/-! ## The receiver -/

/-- R162, R163: what a good character does in each phase of the receiver, with the silence timer of R165; the frame whose
CRC matches joins the good frames, and one whose CRC differs is discarded. -/
def Obligations.CharactersDriveTheReceiver : Prop :=
  ∀ (p : Port) (c : Byte) (s : State), (s.port p).line = .mark →
    let q := { s.port p with character := none }
    let running := some (s.now + (s.port p).rate.silenceUnits)
    let answers := fun q' => exec (.characterReceived p c) s = .next (s.setPort p q')
    ((s.port p).rx = .hunt → c = 0x5A → answers { q with rx := .length, silence := running })
    ∧ ((s.port p).rx = .hunt → c ≠ 0x5A → answers { q with rx := .hunt, silence := none })
    ∧ ((s.port p).rx = .length → 3 ≤ c.toNat → c.toNat ≤ 100 →
        answers { q with rx := .body c.toNat [], silence := running })
    ∧ ((s.port p).rx = .length → c.toNat < 3 ∨ 100 < c.toNat → answers { q with rx := .hunt, silence := none })
    ∧ (∀ n got, (s.port p).rx = .body n got → got.length + 1 < n →
        answers { q with rx := .body n (got ++ [c]), silence := running })
    ∧ (∀ n got, (s.port p).rx = .body n got → n ≤ got.length + 1 →
        answers { q with rx := .crc (got ++ [c]) none, silence := running })
    ∧ (∀ got, (s.port p).rx = .crc got none → answers { q with rx := .crc got (some c), silence := running })
    ∧ (∀ got low, (s.port p).rx = .crc got (some low) → crc (byteOf got.length :: got) = Word16.ofBytes low c →
        answers { q with
          rx := .hunt
          silence := none
          goodFrames := q.goodFrames ++
            [{ kind := got.getD 0 0, tag := got.getD 1 0, inc := got.getD 2 0, body := got.drop 3, stamp := q.frameCount }]
          frameCount := q.frameCount + 1 })
    ∧ (∀ got low, (s.port p).rx = .crc got (some low) → crc (byteOf got.length :: got) ≠ Word16.ofBytes low c →
        answers { q with rx := .hunt, silence := none })

/-- R160: a framing error abandons the frame. R165: the silence limit abandons it, and the limit is not reached before its
time. R160, R165, R177: a passage of the receive line to space starts the break detector's timing and, as a start bit, a
character at the current rate; a passage to mark ends the run. The time after an expiry, the later of the present and the
limit, is the model's choice (log entry 4). -/
def Obligations.FramingErrorsSilenceAndStartBits : Prop :=
  ∀ (p : Port) (s : State),
    (∀ since b r, (s.port p).line = .space since b → (s.port p).character = some r →
      exec (.framingError p) s =
        .next (s.setPort p { s.port p with rx := .hunt, silence := none, character := none }))
    ∧ (∀ t, (s.port p).silence = some t →
        exec (.silenceLimit p) s =
          .next (({ s with now := max s.now t } : State).setPort p { s.port p with rx := .hunt, silence := none }))
    ∧ ((s.port p).line = .mark → (s.port p).character = none →
        exec (.receiveLineChange p true true) s =
          .next (s.setPort p
            { s.port p with line := .space s.now false, character := some (s.port p).rate, silence := none }))
    ∧ (∀ startBit, (s.port p).line = .mark → startBit = false ∨ (s.port p).character ≠ none →
        exec (.receiveLineChange p true startBit) s =
          .next (s.setPort p { s.port p with line := .space s.now false }))
    ∧ (∀ since b startBit, (s.port p).line = .space since b →
        exec (.receiveLineChange p false startBit) s = .next (s.setPort p { s.port p with line := .mark }))

/-- R162, R163, R164, R182: a receiver in HUNT that is sent a request frame, character by character, ends in HUNT with
exactly that frame among its good frames, whatever the kind, the tag, the INC byte and the body. -/
def Obligations.RequestFramesAreReceived : Prop :=
  ∀ (p : Port) (kind tag inc : Byte) (body : List Byte) (s : State), body.length ≤ 97 → (s.port p).line = .mark →
    (s.port p).rx = .hunt →
    runCommands ((requestFrame kind tag inc body).map (Instr.characterReceived p)) s =
      .next (s.setPort p
        { s.port p with
          rx := .hunt
          silence := none
          character := none
          goodFrames := (s.port p).goodFrames ++
            [{ kind := kind, tag := tag, inc := inc, body := body, stamp := (s.port p).frameCount }]
          frameCount := (s.port p).frameCount + 1 })

/-! ## Ports -/

/-- R167: a completed frame is reported, then queued where the inbound queue holds fewer than two frames and discarded
otherwise. R168, R169, R174: the head of the inbound queue is taken when the four conditions hold, and not otherwise; it
is answered from the cache, refused UNKNOWN_KIND or BAD_LENGTH, or enters the check stage. -/
def Obligations.InboundQueueFillsAndIsTaken : Prop :=
  (∀ (p : Port) (f : Frame) (rest : List Frame) (s : State), (s.port p).goodFrames = f :: rest →
    ((s.port p).inbound.length < 2 →
      exec (.frameComplete p) s = .next (s.setPort p
        { s.port p with
          goodFrames := rest
          reports := (s.port p).reports ++ [{ stamp := f.stamp, inc := f.inc }]
          inbound := (s.port p).inbound ++ [f] }))
    ∧ (2 ≤ (s.port p).inbound.length →
      exec (.frameComplete p) s = .next (s.setPort p
        { s.port p with
          goodFrames := rest
          reports := (s.port p).reports ++ [{ stamp := f.stamp, inc := f.inc }] })))
  ∧ (∀ (p : Port) (f : Frame) (rest : List Frame) (s : State), (s.port p).inbound = f :: rest →
    (((s.port p).checkStage ≠ none ∨ 2 ≤ (s.port p).replies.length ∨ (s.port p).pendingRate ≠ none) →
      exec (.takeRequest p) s = .next s)
    ∧ ((s.port p).checkStage = none → (s.port p).replies.length < 2 → (s.port p).pendingRate = none →
      let q := { s.port p with inbound := rest }
      (∀ e, (s.port p).cache = some e → e.kind = f.kind → e.tag = f.tag → e.inc = f.inc →
        exec (.takeRequest p) s =
          .next (s.setPort p
            { q with
              replies := q.replies ++ [{ bytes := e.reply, appliesRate := false }]
              begins := some (q.begins.getD (q.lineFree (momentOf s.now))) }))
      ∧ ((∀ e, (s.port p).cache = some e → ¬ (e.kind = f.kind ∧ e.tag = f.tag ∧ e.inc = f.inc)) →
        ((∀ k : RequestKind, f.kind ≠ k.code) →
          exec (.takeRequest p) s = .next ((s.setPort p q).place p f .unknownKind [] false))
        ∧ ∀ k : RequestKind, f.kind = k.code →
            (f.length ∉ k.lengths →
              exec (.takeRequest p) s = .next ((s.setPort p q).place p f .badLength [] false))
            ∧ (f.length ∈ k.lengths →
              exec (.takeRequest p) s = .next (s.setPort p { q with checkStage := some f })))))

/-- R175: SET_RATE sets the pending rate and answers with its code; a code above 3 is refused. R172, R176: a reply that
has gone leaves the buffer, the transmitter begins the next one at once, and that of a SET_RATE applies the pending rate.
R160, R161, R172: the characters of the oldest reply go back to back on TXDn, each of one start bit at space, eight data
bits, least significant first, and one stop bit at mark; without a character TXDn is at mark. The moments of the events are
the model's choice (log entries 4 and 13): a reply leaves as its last stop bit ends, or when the event is taken, if
later. -/
def Obligations.RatesChangeAfterTheReply : Prop :=
  (∀ (p : Port) (f : Frame) (s : State), s.Offered .setRate p f → s.OpenFor p f →
    (∀ r, f.byte 0 = r.code → ∃ u, exec (.setRate p) s = .next u ∧ s.Answered u p f .ok [r.code]
      ∧ (u.port p).pendingRate = some r ∧ (u.port p).rate = (s.port p).rate
      ∧ (∀ y ∈ (u.port p).replies.getLast?, y.appliesRate = true)
      ∧ s.SameClaimTable u ∧ s.SameSupervision u ∧ s.SameInputs u ∧ s.SameOtherPorts u p ∧ s.SameEvents u
      ∧ u.queue p = s.queue p)
    ∧ (3 < (f.byte 0).toNat →
        exec (.setRate p) s = .next ((s.taking .setRate p f).place p f .badParameter [] false)))
  ∧ (∀ (p : Port) (r : Reply) (rest : List Reply) (s : State), (s.port p).replies = r :: rest →
      let m := (s.port p).leavesAt s.now
      let t := ({ s with now := max s.now (unitOf m) } : State)
      let q := { s.port p with replies := rest, begins := if rest = [] then none else some m }
      (∀ b, (s.port p).begins = some b →
        let ends := b + r.bytes.length * (10 * (s.port p).rate.bitMoments)
        m = if s.now ≤ unitOf ends then ends else momentOf s.now)
      ∧ (r.appliesRate = false → exec (.replySent p) s = .next (t.setPort p q))
      ∧ (r.appliesRate = true → ∀ v, (s.port p).pendingRate = some v →
          exec (.replySent p) s = .next (t.setPort p { q with rate := v, pendingRate := none }))
      ∧ (r.appliesRate = true → (s.port p).pendingRate = none → exec (.replySent p) s = .next (t.setPort p q)))
  ∧ (∀ (q : PortInterface) (b : Moment) (r : Reply) (rest : List Reply), q.replies = r :: rest → q.begins = some b →
      q.lastChar = none →
      (∀ m, m < b ∨ b + r.bytes.length * (10 * q.rate.bitMoments) ≤ m → q.txMark m = true)
      ∧ ∀ i v, r.bytes[i]? = some v → ∀ n < 10, ∀ m,
          b + (10 * i + n) * q.rate.bitMoments ≤ m → m < b + (10 * i + n + 1) * q.rate.bitMoments →
          q.txMark m = (if n = 0 then false else if n = 9 then true else v.getLsbD (n - 1)))
  ∧ (∀ (q : PortInterface) (m : Moment), q.replies = [] → q.lastChar = none → q.txMark m = true)
  ∧ (∀ r : Rate, r.bitMoments * 2 ^ r.code.toNat = 1000)
  ∧ ∀ (s : State) (p : Port), s.txd p = if (s.port p).txMark (s.now * 1152) = true then .high else .low

/-- R177, R178, R119: a space run of 10 ms is a break: the port is returned to 115 200 bit/s with its queues, check stage
and reply buffer empty, and an open session is severed with reason BREAK; one break is made for a run. R178, R179: the
character on TXDn is sent to its stop bit and no later one of its reply is. The time of the event, the later of the present
and the end of the 10 ms, is the model's choice (log entry 4). -/
def Obligations.BreakResetsThePort : Prop :=
  ∀ (p : Port) (since : Time) (s : State),
    ((s.port p).line = .space since true → exec (.breakDetected p) s = .next s)
    ∧ ((s.port p).line = .space since false → ∃ u, exec (.breakDetected p) s = .next u
      ∧ u.now = max s.now (since + 1000)
      ∧ (u.port p).rate = .r115200 ∧ (u.port p).pendingRate = none ∧ (u.port p).rx = .hunt ∧ (u.port p).silence = none
      ∧ (u.port p).inbound = [] ∧ (u.port p).checkStage = none ∧ (u.port p).replies = []
      ∧ (u.port p).line = .space since true
      ∧ (u.port p).begins = none ∧ (u.port p).lastChar = (s.port p).onLine (momentOf u.now)
      ∧ (∀ c, (s.port p).onLine (momentOf u.now) = some c → ∀ m, momentOf u.now ≤ m →
          (u.port p).txMark m = if m < c.began + 10 * c.rate.bitMoments then c.isMark m else true)
      ∧ ((s.port p).onLine (momentOf u.now) = none → ∀ m, momentOf u.now ≤ m → (u.port p).txMark m = true)
      ∧ (∀ o, (s.session p).state.opened = some o → (u.port p).cache = none
          ∧ u.session p =
              { incarnation := s.incarnation p
                state := .severed
                  { reason := .lineBreak, incarnation := s.incarnation p, clientId := o.clientId
                    holdings := (s.holdingsOf p).length, requests := s.openRequests p } }
          ∧ (∀ c ∈ u.claims, c.owner ≠ p) ∧ (∀ h, u.slot p h = .free) ∧ (u.queue p).entries = [])
      ∧ (s.isOpen p = false → (u.port p).cache = (s.port p).cache ∧ u.session p = s.session p
          ∧ s.SameClaimTable u ∧ u.queues = s.queues)
      ∧ s.SameSupervision u ∧ (∀ q, q ≠ p → u.session q = s.session q ∧ u.port q = s.port q)
      ∧ u.confirmInputs = s.confirmInputs ∧ u.severInputs = s.severInputs)

/-! ## Sessions -/

/-- R107: a JOIN on a port without a session opens one; R106: it is refused HELD_DOWN while the sever input is asserted,
and BAD_PARAMETER for a keepalive interval outside 20 to 10 000 ms, in every session state. -/
def Obligations.JoinOpensASession : Prop :=
  ∀ (p : Port) (f : Frame) (s : State), s.Offered .join p f →
    (s.severInputs[p].filtered = true →
      exec (.join p) s = .next ((s.taking .join p f).place p f .heldDown [] false))
    ∧ (s.severInputs[p].filtered = false → (f.word 2).toNat < 20 ∨ 10000 < (f.word 2).toNat →
      exec (.join p) s = .next ((s.taking .join p f).place p f .badParameter [] false))
    ∧ (s.severInputs[p].filtered = false → 20 ≤ (f.word 2).toNat → (f.word 2).toNat ≤ 10000 → s.isOpen p = false →
      let inc : Byte := if s.incarnation p = 255 then 1 else s.incarnation p + 1
      ∃ u, exec (.join p) s = .next u
        ∧ u.session p =
            { incarnation := inc
              state := .live
                { clientId := f.word 0, keepalive := f.word 2, windowEnds := s.now + (f.word 2).toNat * 100 } }
        ∧ u.queue p = { entries := [], nextSeq := 1, incarnation := inc }
        ∧ s.Answered u p f .ok
            ([inc] ++ wordBytes (f.word 2) ++ [byteOfBool (decide (s.supervisor = p))] ++
              (match (s.session p).state with
               | .severed r =>
                 [r.reason.code, r.incarnation] ++ wordBytes r.clientId ++ [byteOf r.holdings, byteOf r.requests]
               | _ => [0]))
        ∧ (∀ y ∈ (u.port p).replies.getLast?,
            (u.port p).cache = some { kind := f.kind, tag := f.tag, inc := f.inc, reply := y.bytes })
        ∧ s.SameClaimTable u ∧ s.SameSupervision u ∧ s.SameInputs u ∧ s.SameOtherPorts u p ∧ s.SameEvents u)

/-- R108: a JOIN on an open session severs it with reason REJOIN, passing everything of the port on, and opens a new
session in the same event. -/
def Obligations.RejoinSeversFirst : Prop :=
  ∀ (p : Port) (f : Frame) (o : OpenSession) (s : State), s.Offered .join p f → s.severInputs[p].filtered = false →
    20 ≤ (f.word 2).toNat → (f.word 2).toNat ≤ 10000 → (s.session p).state.opened = some o →
    let inc : Byte := if s.incarnation p = 255 then 1 else s.incarnation p + 1
    ∃ u, exec (.join p) s = .next u
      ∧ u.session p =
          { incarnation := inc
            state := .live
              { clientId := f.word 0, keepalive := f.word 2, windowEnds := s.now + (f.word 2).toNat * 100 } }
      ∧ u.queue p = { entries := [], nextSeq := 1, incarnation := inc }
      ∧ (∀ c ∈ u.claims, c.owner ≠ p) ∧ (∀ h, u.slot p h = .free) ∧ (u.port p).inbound = []
      ∧ s.Answered u p f .ok
          ([inc] ++ wordBytes (f.word 2) ++ [byteOfBool (decide (s.supervisor = p))] ++
            [5, s.incarnation p] ++ wordBytes o.clientId ++
            [byteOf (s.holdingsOf p).length, byteOf (s.openRequests p)])
      ∧ s.SameSupervision u ∧ s.SameInputs u ∧ ∀ q, q ≠ p → u.session q = s.session q ∧ u.port q = s.port q

/-- R111, R120: LEAVE ends the session of its port, which owns nothing afterwards, without a report; R122: SEVER ends the
session of the port it names with reason SUPERVISOR, and answers with counts of 0 where that port has none; a port number
above 5 is refused BAD_PARAMETER. -/
def Obligations.LeaveAndSeverEndTheSession : Prop :=
  ∀ (p : Port) (f : Frame) (s : State),
    (s.Offered .leave p f → s.OpenFor p f → ∃ u, exec (.leave p) s = .next u
      ∧ u.session p = { incarnation := s.incarnation p, state := .idle }
      ∧ (∀ c ∈ u.claims, c.owner ≠ p) ∧ (∀ h, u.slot p h = .free) ∧ u.queue p = { s.queue p with entries := [] }
      ∧ (u.port p).inbound = []
      ∧ s.Answered u p f .ok [byteOf (s.holdingsOf p).length, byteOf (s.openRequests p)]
      ∧ (∀ y ∈ (u.port p).replies.getLast?,
          (u.port p).cache = some { kind := f.kind, tag := f.tag, inc := f.inc, reply := y.bytes })
      ∧ s.SameSupervision u ∧ s.SameInputs u ∧ ∀ q, q ≠ p → u.session q = s.session q ∧ u.port q = s.port q)
    ∧ (s.Offered .sever p f → s.OpenFor p f → p = s.supervisor → 5 < (f.byte 0).toNat →
        exec (.sever p) s = .next ((s.taking .sever p f).place p f .badParameter [] false))
    ∧ (s.Offered .sever p f → s.OpenFor p f → p = s.supervisor → ∀ k : Port, (f.byte 0).toNat = k.val →
        (s.isOpen k = false →
          exec (.sever p) s = .next ((s.taking .sever p f).place p f .ok [0, 0] true))
        ∧ (∀ o, (s.session k).state.opened = some o → ∃ u, exec (.sever p) s = .next u
          ∧ u.session k =
              { incarnation := s.incarnation k
                state := .severed
                  { reason := .supervisor, incarnation := s.incarnation k, clientId := o.clientId
                    holdings := (s.holdingsOf k).length, requests := s.openRequests k } }
          ∧ (∀ c ∈ u.claims, c.owner ≠ k) ∧ (∀ h, u.slot k h = .free) ∧ u.queue k = { s.queue k with entries := [] }
          ∧ (u.port k).inbound = []
          ∧ s.Answered u p f .ok [byteOf (s.holdingsOf k).length, byteOf (s.openRequests k)]
          ∧ s.SameSupervision u ∧ s.SameInputs u
          ∧ (∀ q, q ≠ k → q ≠ p → u.session q = s.session q ∧ u.port q = s.port q)))

/-- R103, R112, R113: the Session Controller takes a good-frame report: a valid frame restarts a LIVE session's window and
sets a LAPSED session's flag; any other has no effect. -/
def Obligations.FrameReportsActOnTheWindow : Prop :=
  ∀ (p : Port) (r : FrameReport) (rest : List FrameReport) (s : State), (s.port p).reports = r :: rest →
    let t := s.setPort p { s.port p with reports := rest }
    (∀ o, (s.session p).state = .live o → r.inc = s.incarnation p →
      exec (.frameReport p) s = .next (t.setSession p
        { s.session p with state := .live { o with windowEnds := s.now + o.keepalive.toNat * 100 } }))
    ∧ (∀ o l, (s.session p).state = .lapsed o l → r.inc = s.incarnation p →
      exec (.frameReport p) s = .next (t.setSession p
        { s.session p with state := .lapsed o { l with frameSeen := true } }))
    ∧ (s.isOpen p = false ∨ r.inc ≠ s.incarnation p → exec (.frameReport p) s = .next t)

/-- R112, R114, R115: what the expiry of a session's window does, by the state of the session, its flag, its counts and
the limits in force. The time of the event, the later of the present and the expiry, is the model's choice (log entry
4). -/
def Obligations.WindowExpiryOutcomes : Prop :=
  ∀ (p : Port) (o : OpenSession) (s : State),
    let u := { s with now := max s.now o.windowEnds }
    let again := { o with windowEnds := max s.now o.windowEnds + o.keepalive.toNat * 100 }
    let severed := ∃ v, exec (.windowExpiry p) s = .next v
      ∧ v.session p =
          { incarnation := s.incarnation p
            state := .severed
              { reason := .keepalive, incarnation := s.incarnation p, clientId := o.clientId
                holdings := (s.holdingsOf p).length, requests := s.openRequests p } }
      ∧ (∀ c ∈ v.claims, c.owner ≠ p) ∧ (∀ h, v.slot p h = .free) ∧ v.queue p = { s.queue p with entries := [] }
      ∧ v.port p = { s.port p with cache := none, inbound := [] }
      ∧ u.SameSupervision v ∧ u.SameInputs v ∧ ∀ q, q ≠ p → v.session q = s.session q ∧ v.port q = s.port q
    ((s.session p).state = .live o → s.threshold ≤ 1 → severed)
    ∧ ((s.session p).state = .live o → 1 < s.threshold →
        exec (.windowExpiry p) s = .next (u.setSession p
          { s.session p with state := .lapsed again { frameSeen := false, missCount := 1, streak := 0 } }))
    ∧ ∀ l, (s.session p).state = .lapsed o l →
        (l.frameSeen = true → s.recovery ≤ l.streak + 1 →
          exec (.windowExpiry p) s = .next
            { u.setSession p { s.session p with state := .live again } with
              liveReports := s.liveReports ++ [{ port := p, incarnation := s.incarnation p }] })
        ∧ (l.frameSeen = true → l.streak + 1 < s.recovery →
          exec (.windowExpiry p) s = .next (u.setSession p
            { s.session p with
              state := .lapsed again { frameSeen := false, missCount := l.missCount, streak := l.streak + 1 } }))
        ∧ (l.frameSeen = false → s.threshold ≤ l.missCount + 1 → severed)
        ∧ (l.frameSeen = false → l.missCount + 1 < s.threshold →
          exec (.windowExpiry p) s = .next (u.setSession p
            { s.session p with
              state := .lapsed again { frameSeen := false, missCount := l.missCount + 1, streak := 0 } }))

/-- R117, R118: the filter of a sever input, and the sever with reason PIN when its filtered level becomes asserted. The
model's choices: the time of the event, the later of the present and the end of the 1 ms (log entry 4); a raw level given
again and a filter with nothing due change nothing (log entry 7). -/
def Obligations.SeverInputsAreFiltered : Prop :=
  ∀ (p : Port) (s : State),
    (∀ level, s.severInputs[p].raw ≠ level →
      exec (.severInputChange p level) s =
        .next (s.setSever p { s.severInputs[p] with raw := level, changed := s.now }))
    ∧ (∀ level, s.severInputs[p].raw = level → exec (.severInputChange p level) s = .next s)
    ∧ (s.severInputs[p].raw = s.severInputs[p].filtered → exec (.severInputFiltered p) s = .next s)
    ∧ (s.severInputs[p].raw = false → s.severInputs[p].filtered = true →
        exec (.severInputFiltered p) s =
          .next (({ s with now := max s.now (s.severInputs[p].changed + 100) } : State).setSever p
            { s.severInputs[p] with filtered := false }))
    ∧ (s.severInputs[p].raw = true → s.severInputs[p].filtered = false → ∃ u,
        exec (.severInputFiltered p) s = .next u
        ∧ u.now = max s.now (s.severInputs[p].changed + 100)
        ∧ u.severInputs[p] = { s.severInputs[p] with filtered := true }
        ∧ (s.isOpen p = false → u.session p = s.session p ∧ s.SameClaimTable u ∧ u.queues = s.queues ∧ u.ports = s.ports)
        ∧ (∀ o, (s.session p).state.opened = some o →
            u.session p =
              { incarnation := s.incarnation p
                state := .severed
                  { reason := .pin, incarnation := s.incarnation p, clientId := o.clientId
                    holdings := (s.holdingsOf p).length, requests := s.openRequests p } }
            ∧ (∀ c ∈ u.claims, c.owner ≠ p) ∧ (∀ h, u.slot p h = .free)
            ∧ u.queue p = { s.queue p with entries := [] }
            ∧ u.port p = { s.port p with cache := none, inbound := [] })
        ∧ s.SameSupervision u ∧ ∀ q, q ≠ p → u.session q = s.session q ∧ u.port q = s.port q)

/-! ## Claims, requests and grants -/

/-- R27 to R31, R33, R36, R38, R40: a CLAIM of TOKEN resources that are all free for it is granted in its acceptance
event: its claims are HELD under the next grant numbers, its slot is FREE again, no notice is added, and the reply is
GRANTED with the numbers (R189). The premise is the law of the table (R23), by which a FREE slot has no claim. -/
def Obligations.FreeTokensAreGrantedAtOnce : Prop :=
  ∀ (p : Port) (h : Handle) (f : Frame) (s : State), s.TableLaw → s.Offered .claim p f → s.isLive p = true →
    f.inc = s.incarnation p → s.mode = .service →
    (f.byte 0).toNat = h.val → 1 ≤ f.itemCount → f.itemCount ≤ 4 → (f.byte 3).toNat = f.itemCount →
    (∀ b ∈ f.itemBytes, b.1.toNat ≤ 63 ∧ (b.2 = 0 ∨ b.2 = 1)) →
    (f.items.map fun i => i.resource).Nodup → s.slot p h = .free → f.items.length ≤ s.freeCount →
    (∀ i ∈ f.items, (∃ sh st, s.kindOf i.resource = some (.token sh st) ∧ st ≠ .faulted ∧ (i.mode = .shared → sh = true))
      ∧ s.waitQueue i.resource = [] ∧ (i.mode = .exclusive → s.assigned i.resource = [])
      ∧ (∀ a ∈ s.assigned i.resource, a.mode = .shared ∧ a.state.isOvertime = false ∧ a.owner ≠ p)
      ∧ s.revocationPending p i.resource = false) →
    ∃ u, exec (.claim p) s = .next u
      ∧ s.Answered u p f .granted
          (grantedRecord h (f.items.map fun i => (i.resource, s.grantOf i.resource + 1)))
      ∧ u.claims = s.claims ++ f.items.map (fun i =>
          { owner := p, resource := i.resource, mode := i.mode
            state := .held (s.grantOf i.resource + 1) (s.holdAt i.resource) })
      ∧ (∀ q k, u.slot q k = s.slot q k) ∧ u.queues = s.queues
      ∧ (∀ i ∈ f.items, ∀ r sh st, s.resource i.resource = some r → r.kind = .token sh st →
          u.resource i.resource = some { r with grantNumber := r.grantNumber + 1, kind := .token sh .occupied })
      ∧ (∀ x, x ∉ f.items.map (fun i => i.resource) → u.resource x = s.resource x)
      ∧ u.lineReports = s.lineReports ∧ s.SameSupervision u ∧ s.SameInputs u ∧ s.SameOtherPorts u p ∧ s.SameEvents u

/-- R30, R32, R46, R62: a CLAIM of resources that are all held EXCLUSIVE is filed: its claims stand at the tails of the
wait queues, its slot is WAITING with its wait timer, the reply is ACCEPTED, and every OVERTIME holding of a named
resource, whose yield grace is not 0, begins yielding with a YIELD notice to its holder. R31, R38, R84, R85: a CLAIM of
free resources, at least one of kind LINE, is reserved in its acceptance event: the reply is ACCEPTED, its claims are
RESERVED, its slot is ASSEMBLING with the LINE items pending, a TOKEN resource is OCCUPIED, a LINE resource goes from
COOLING to GUARD with its guard running on, and from VACANT to VERIFY where its confirm input stands at the engaged level
and to ENGAGE with the port's drive pattern otherwise. The premise there is the law of the table (R23). -/
def Obligations.ClaimsQueueBehindHolders : Prop :=
  (∀ (p : Port) (h : Handle) (f : Frame) (s : State), s.Offered .claim p f → s.OpenFor p f → s.mode = .service →
    (f.byte 0).toNat = h.val → 1 ≤ f.itemCount → f.itemCount ≤ 4 → (f.byte 3).toNat = f.itemCount →
    (∀ b ∈ f.itemBytes, b.1.toNat ≤ 63 ∧ (b.2 = 0 ∨ b.2 = 1)) →
    (f.items.map fun i => i.resource).Nodup → s.slot p h = .free → f.items.length ≤ s.freeCount →
    (∀ i ∈ f.items, (∃ k, s.kindOf i.resource = some k ∧ k.isFaulted = false ∧ (i.mode = .shared → k.isShareable = true))
      ∧ (∃ a ∈ s.assigned i.resource, a.mode = .exclusive) ∧ (∀ a ∈ s.claims, a.resource = i.resource → a.owner ≠ p)
      ∧ s.revocationPending p i.resource = false
      ∧ (s.graceOf i.resource ≠ some 0 ∨ ∀ a ∈ s.assigned i.resource, a.state.isOvertime = false)) →
    ∃ u, exec (.claim p) s = .next u
      ∧ s.Answered u p f .accepted [byteOf h]
      ∧ u.claims = (s.claims.map fun c =>
            if c.state.isOvertime = true ∧ c.resource ∈ f.items.map (fun i => i.resource) then
              let ends := s.now + msUnits ((s.graceOf c.resource).getD 0)
              { c with state := .held (c.state.grant.getD 0) (.yielding ends) }
            else c)
          ++ f.items.map (fun i => { owner := p, resource := i.resource, mode := i.mode, state := .waiting h })
      ∧ u.slot p h =
          .waiting { incarnation := s.incarnation p, items := f.items, waitLimit := f.word 1 }
            (if f.word 1 = 0 then none else some (s.now + (f.word 1).toNat * 100))
      ∧ (∀ q k, ¬ (q = p ∧ k = h) → u.slot q k = s.slot q k)
      ∧ (∀ c ∈ s.claims, c.state.isOvertime = true → c.resource ∈ f.items.map (fun i => i.resource) →
          s.isOpen c.owner = true → (s.claims.map fun a => (a.owner, a.resource)).Nodup →
          u.HasNotice c.owner
            (.yieldDue c.resource (c.state.grant.getD 0) ((s.graceOf c.resource).getD 0)))
      ∧ u.resources = s.resources ∧ u.lineReports = s.lineReports
      ∧ s.SameSupervision u ∧ s.SameInputs u ∧ s.SameEvents u
      ∧ ∀ q, q ≠ p → u.session q = s.session q ∧ u.port q = s.port q)
  ∧ ∀ (p : Port) (h : Handle) (f : Frame) (s : State), s.TableLaw → s.Offered .claim p f → s.isLive p = true →
    f.inc = s.incarnation p → s.mode = .service →
    (f.byte 0).toNat = h.val → 1 ≤ f.itemCount → f.itemCount ≤ 4 → (f.byte 3).toNat = f.itemCount →
    (∀ b ∈ f.itemBytes, b.1.toNat ≤ 63 ∧ (b.2 = 0 ∨ b.2 = 1)) →
    (f.items.map fun i => i.resource).Nodup → s.slot p h = .free → f.items.length ≤ s.freeCount →
    (∀ i ∈ f.items, s.waitQueue i.resource = [] ∧ s.revocationPending p i.resource = false
      ∧ (i.mode = .exclusive → s.assigned i.resource = [])
      ∧ (∀ a ∈ s.assigned i.resource, a.mode = .shared ∧ a.state.isOvertime = false ∧ a.owner ≠ p)
      ∧ ((∃ sh st, s.kindOf i.resource = some (.token sh st) ∧ st ≠ .faulted ∧ (i.mode = .shared → sh = true))
        ∨ (i.mode = .exclusive ∧ ∃ d st lu, s.kindOf i.resource = some (.line d st lu) ∧ (st = .vacant ∨ st = .cooling)))) →
    (∃ i ∈ f.items, s.isLineRes i.resource = true) →
    ∃ u, exec (.claim p) s = .next u
      ∧ s.Answered u p f .accepted [byteOf h]
      ∧ u.claims = s.claims ++ f.items.map (fun i =>
          { owner := p, resource := i.resource, mode := i.mode, state := .reserved h })
      ∧ u.slot p h =
          .assembling { incarnation := s.incarnation p, items := f.items, waitLimit := f.word 1 }
            ((f.items.map fun i => i.resource).filter s.isLineRes)
      ∧ (∀ q k, ¬ (q = p ∧ k = h) → u.slot q k = s.slot q k) ∧ u.queues = s.queues
      ∧ (∀ i ∈ f.items, ∀ r, s.resource i.resource = some r →
          (∀ sh st, r.kind = .token sh st → u.resource i.resource = some { r with kind := .token sh .occupied })
          ∧ (∀ d lu, r.kind = .line d .cooling lu → u.resource i.resource = some { r with kind := .line d .guard lu })
          ∧ (∀ d lu, r.kind = .line d .vacant lu →
              (d.confirm = none →
                u.resource i.resource = some { r with kind := .line d .engage { applied := some p, phase := .quiet } }
                ∧ { resource := i.resource, kind := .engagedSeen, current := true } ∈ u.lineReports)
              ∧ ∀ b, d.confirm = some b →
                (s.engagedLevel b = true → u.resource i.resource = some
                  { r with
                    kind := .line d .verify
                      { applied := lu.applied, phase := .verify (s.now + b.timeout.toNat * 100) } })
                ∧ (s.engagedLevel b = false → u.resource i.resource = some
                  { r with
                    kind := .line d .engage
                      { applied := some p, phase := .engage (s.now + b.timeout.toNat * 100) } })))
      ∧ (∀ x, x ∉ f.items.map (fun i => i.resource) → u.resource x = s.resource x)
      ∧ s.SameSupervision u ∧ s.SameInputs u ∧ s.SameOtherPorts u p ∧ s.SameEvents u

/-- R40, R41, R91: when the last pending item of an ASSEMBLING request is seen engaged, every claim of the request becomes
HELD under the next grant number of its resource, every LINE resource goes from ENGAGE to HELD, the GRANTED notice names
every item, and the slot is DONE; while another item is pending, only the mark changes. -/
def Obligations.EngagedSeenCompletesAndGrants : Prop :=
  ∀ (p : Port) (h : Handle) (x : ResNo) (fl : Filing) (pend : List ResNo) (d : LineDef) (lu : PhaseRecord) (s : State),
    s.oldestReport x .engagedSeen = some { resource := x, kind := .engagedSeen, current := true } →
    s.kindOf x = some (.line d .engage lu) → s.slot p h = .assembling fl pend →
    s.reservingRequest x = some (p, h) → x ∈ pend →
    (pend.erase x ≠ [] → ∃ u, exec (.engagedSeen x) s = .next u
      ∧ u.slot p h = .assembling fl (pend.erase x) ∧ (∀ q k, ¬ (q = p ∧ k = h) → u.slot q k = s.slot q k)
      ∧ u.lineReports = s.lineReports.eraseP (fun r => r.resource == x)
      ∧ u.claims = s.claims ∧ u.resources = s.resources ∧ u.queues = s.queues ∧ s.SameOutsideClaimTable u)
    ∧ (pend.erase x = [] → (fl.items.map Item.resource).Nodup → (∀ i ∈ fl.items, (s.resource i.resource).isSome = true) →
        (∀ i ∈ fl.items, s.isLineRes i.resource = true →
          ∃ c ∈ s.claims, Claim.ofRequest p h c = true ∧ c.state.isReserved = true ∧ c.resource = i.resource
            ∧ c.mode = .exclusive) →
        ∃ u, exec (.engagedSeen x) s = .next u
          ∧ u.slot p h = .done fl.incarnation .granted ∧ (∀ q k, ¬ (q = p ∧ k = h) → u.slot q k = s.slot q k)
          ∧ u.claims = s.claims.map (fun c =>
              if Claim.ofRequest p h c = true ∧ c.state.isReserved = true ∧ c.resource ∈ fl.items.map Item.resource then
                s.granted c
              else c)
          ∧ (∀ i ∈ fl.items, ∀ r, s.resource i.resource = some r →
              u.resource i.resource = some
                { r with
                  grantNumber := r.grantNumber + 1
                  kind := match r.kind with
                    | .line d .engage lu => .line d .held lu
                    | k => k })
          ∧ (∀ y, y ∉ fl.items.map Item.resource → u.resource y = s.resource y)
          ∧ (s.isOpen p = true → u.queue p =
              (s.queue p).add (.granted h (fl.items.map fun i => (i.resource, s.grantOf i.resource + 1))))
          ∧ (∀ q, q ≠ p → u.queue q = s.queue q)
          ∧ u.lineReports = s.lineReports.eraseP (fun r => r.resource == x) ∧ s.SameOutsideClaimTable u)

/-- R42, R43, R45: CANCEL of an open request drops it: no claim of it remains, its slot is FREE and the reply is OK; of a
FREE or DONE slot it is refused NOT_WAITING, and for a handle above 7 BAD_PARAMETER. -/
def Obligations.CancelDropsTheRequest : Prop :=
  ∀ (p : Port) (f : Frame) (s : State), s.Offered .cancel p f → s.OpenFor p f →
    let t := (s.taking .cancel p f).endOfEvent
    (7 < (f.byte 0).toNat → exec (.cancel p) s = .next (t.place p f .badParameter [] false))
    ∧ ∀ h : Handle, (f.byte 0).toNat = h.val →
      ((s.slot p h).isOpen = false → exec (.cancel p) s = .next (t.place p f .notWaiting [] false))
      ∧ ((s.slot p h).isOpen = true → ∃ u, exec (.cancel p) s = .next u
        ∧ s.Answered u p f .ok [] ∧ u.slot p h = .free ∧ (∀ c ∈ u.claims, Claim.ofRequest p h c = false)
        ∧ (∀ q k, ¬ (q = p ∧ k = h) → u.slot q k = s.slot q k ∨ (s.slot q k).isOpen = true)
        ∧ ((∀ i ∈ (s.slot p h).items, ∀ c ∈ s.waitQueue i.resource, Claim.ofRequest p h c = true) →
            u.claims = s.claims.filter (fun c => !Claim.ofRequest p h c) ∧ u.queues = s.queues
            ∧ ∀ q k, ¬ (q = p ∧ k = h) → u.slot q k = s.slot q k)
        ∧ s.SameSupervision u ∧ s.SameInputs u ∧ s.SameEvents u
        ∧ ∀ q, q ≠ p → u.session q = s.session q ∧ u.port q = s.port q)

/-- R44, R56, R94, R95: the removal of claims takes them out of the pool, and each resource that loses an assigned claim
changes its state, its pattern and its guard: TOKEN VACANT or still OCCUPIED; LINE GUARD to COOLING with the guard running
on, VERIFY to VACANT, ENGAGE and HELD to COOLING with the idle pattern applied and the guard started anew, where reports made
before are current no longer (R77). R43: a CANCEL of an ASSEMBLING request for whose resources nobody waits unwinds it so:
its RESERVED claims go, its slot is FREE, and every other resource stays as it is. -/
def Obligations.RemovalLeavesTheResource : Prop :=
  (∀ (sel : Claim → Bool) (s : State),
    let u := s.removeClaims sel
    u.claims = s.claims.filter (fun c => !sel c)
    ∧ ∀ x, ((∀ c ∈ s.assigned x, sel c = false) → u.resource x = s.resource x) ∧ ∀ r, s.resource x = some r →
      (∃ c ∈ s.assigned x, sel c = true) → s.ResourceUnwound u x r)
  ∧ ∀ (p : Port) (h : Handle) (f : Frame) (fl : Filing) (pend : List ResNo) (s : State), s.Offered .cancel p f →
    s.OpenFor p f → (f.byte 0).toNat = h.val → s.slot p h = .assembling fl pend →
    (∀ i ∈ fl.items, s.waitQueue i.resource = []) →
    ∃ u, exec (.cancel p) s = .next u ∧ s.Answered u p f .ok []
      ∧ u.claims = s.claims.filter (fun c => !Claim.ofRequest p h c)
      ∧ u.slot p h = .free ∧ (∀ q k, ¬ (q = p ∧ k = h) → u.slot q k = s.slot q k) ∧ u.queues = s.queues
      ∧ (∀ x, ((∀ c ∈ s.assigned x, Claim.ofRequest p h c = false) →
            u.resource x = s.resource x
            ∧ (u.lineReports.filter fun y => y.resource == x) = s.lineReports.filter fun y => y.resource == x)
          ∧ ∀ r, s.resource x = some r → (∃ c ∈ s.assigned x, Claim.ofRequest p h c = true) → s.ResourceUnwound u x r)
      ∧ s.SameSupervision u ∧ s.SameInputs u ∧ s.SameEvents u
      ∧ ∀ q, q ≠ p → u.session q = s.session q ∧ u.port q = s.port q

/-- R57, R58: RELEASE of a holding with its grant number removes it; with another number it is refused STALE_GRANT; and
where the port's claim on the resource is not HELD, or it has none, it is refused NOT_HELD. The last clause of the first
case needs the law of R22. A resource number above 63 is refused BAD_PARAMETER, an undefined one UNDEFINED_RESOURCE. -/
def Obligations.ReleaseNamesOneHolding : Prop :=
  (∀ (p : Port) (f : Frame) (s : State), s.Offered .release p f → s.OpenFor p f → s.ChecksTheResource .release p f)
  ∧ ∀ (p : Port) (x : ResNo) (f : Frame) (s : State), s.Offered .release p f → s.OpenFor p f →
    (f.byte 0).toNat = x.val → (s.resource x).isSome = true →
    let t := (s.taking .release p f).endOfEvent
    (∀ c g ph, s.claimOn p x = some c → c.state = .held g ph →
      (g ≠ f.word 1 → exec (.release p) s = .next (t.place p f .staleGrant [] false))
      ∧ (g = f.word 1 → ∃ u, exec (.release p) s = .next u ∧ s.Answered u p f .ok []
        ∧ (s.PoolLaw → ∀ c ∈ u.claims, ¬ (c.owner = p ∧ c.resource = x))
        ∧ (∀ q k, u.slot q k = s.slot q k ∨ (s.slot q k).isOpen = true)
        ∧ s.SameSupervision u ∧ s.SameInputs u ∧ s.SameEvents u
        ∧ ∀ q, q ≠ p → u.session q = s.session q ∧ u.port q = s.port q))
    ∧ ((∀ c, s.claimOn p x = some c → c.state.isHeld = false) →
        exec (.release p) s = .next (t.place p f .notHeld [] false))

/-- R56, R58, R59, R94: a RELEASE of a resource for which nobody waits: the holding leaves, a TOKEN resource is VACANT or
stays OCCUPIED by the other holders, a LINE resource is COOLING with its idle pattern and a guard started, and nothing
else changes. -/
def Obligations.ReleaseWithoutWaiters : Prop :=
  ∀ (p : Port) (x : ResNo) (f : Frame) (c : Claim) (ph : HoldPhase) (r : Resource) (s : State),
    s.Offered .release p f → s.OpenFor p f → (f.byte 0).toNat = x.val → s.resource x = some r →
    s.claimOn p x = some c → c.state = .held (f.word 1) ph → s.waitQueue x = [] →
    ∃ u, exec (.release p) s = .next u ∧ s.Answered u p f .ok []
      ∧ u.claims = s.claims.filter (fun c => !Claim.isHolding p x c)
      ∧ u.slots = s.slots ∧ u.queues = s.queues
      ∧ (∀ sh st, r.kind = .token sh st → st ≠ .faulted →
          u.resource x = some
            { r with kind := .token sh (if (u.assigned x) = [] then .vacant else .occupied) })
      ∧ (∀ d lu, r.kind = .line d .held lu →
          u.resource x = some
            { r with kind := .line d .cooling { applied := none, phase := .guard (s.now + d.guard.toNat) } }
          ∧ ∀ y ∈ u.lineReports, y.resource = x → y.current = false)
      ∧ (∀ y, y ≠ x → u.resource y = s.resource y)
      ∧ s.SameSupervision u ∧ s.SameInputs u ∧ s.SameOtherPorts u p ∧ s.SameEvents u

/-! ## Notices -/

/-- R135 to R138: FETCH removes the acknowledged run, sends an acknowledgement event for each handle-keyed entry removed,
delivers the six oldest undelivered entries and answers with the counts and the records. R134, R136: what an
acknowledgement number removes: nothing where it is 0 or no delivered entry carries it, and otherwise the run from the
head up to the entry, all of it delivered. -/
def Obligations.FetchAcknowledgesAndDelivers : Prop :=
  (∀ (p : Port) (f : Frame) (s : State), s.Offered .fetch p f → s.OpenFor p f →
    (1 < (f.byte 2).toNat → exec (.fetch p) s = .next ((s.taking .fetch p f).place p f .badParameter [] false))
    ∧ ((f.byte 2).toNat ≤ 1 →
      let q := s.queue p
      let removed := ackedEntries (f.word 0) q.entries
      let kept := q.entries.drop removed.length
      let left := if f.byte 2 = 1 then kept.map (fun e => { e with delivered := false }) else kept
      let out := (left.filter fun e => !e.delivered).take 6
      ∃ u, exec (.fetch p) s = .next u
        ∧ (u.queue p).entries.map (fun e => (e.seq, e.notice)) = kept.map (fun e => (e.seq, e.notice))
        ∧ (u.queue p).undelivered = (left.filter fun e => !e.delivered).length - out.length
        ∧ (∀ e ∈ out, { e with delivered := true } ∈ (u.queue p).entries)
        ∧ (u.queue p).nextSeq = q.nextSeq ∧ (u.queue p).incarnation = q.incarnation
        ∧ s.Answered u p f .ok
            ([byteOf removed.length, byteOf (u.queue p).undelivered, byteOf out.length] ++ out.flatMap Entry.record)
        ∧ u.ackEvents = s.ackEvents ++ removed.filterMap (fun e =>
            match e.notice.key with
            | .handle h => some { port := p, handle := h, incarnation := q.incarnation }
            | _ => none)
        ∧ u.liveReports = s.liveReports
        ∧ s.SameClaimTable u ∧ s.SameSupervision u ∧ s.SameInputs u ∧ s.SameOtherPorts u p))
  ∧ ∀ (ack : Word16) (q : NoticeQueue),
    ((ack = 0 ∨ ∀ e ∈ q.entries, e.delivered = true → e.seq ≠ ack) → ackedEntries ack q.entries = [])
    ∧ (∀ pre e post, q.entries = pre ++ e :: post → e.delivered = true → e.seq = ack → ack ≠ 0 → q.Law →
        ackedEntries ack q.entries = pre ++ [e]
        ∧ (q.DeliveredFirst → ∀ d ∈ pre, d.delivered = true))

/-- R24: an acknowledgement event frees the slot of its port and handle where it is DONE under the event's incarnation,
and has no effect in any other case. -/
def Obligations.AcknowledgementFreesTheSlot : Prop :=
  ∀ (p : Port) (h : Handle) (a : AckEvent) (pre post : List AckEvent) (s : State),
    s.ackEvents = pre ++ a :: post → a.port = p → a.handle = h → (∀ b ∈ pre, ¬ (b.port = p ∧ b.handle = h)) →
    let t := ({ s with ackEvents := pre ++ post } : State)
    ((∃ o, s.slot p h = .done a.incarnation o) →
      exec (.outcomeAcknowledged p h) s = .next ((t.setSlot p h .free).endOfEvent))
    ∧ ((∀ o, s.slot p h ≠ .done a.incarnation o) → exec (.outcomeAcknowledged p h) s = .next t.endOfEvent)

/-! ## Resources and Supervision -/

/-- R13, R14, R16, R76: DEFINE writes the whole record, a TOKEN resource VACANT and a LINE resource COOLING on its idle
pattern with the guard started; UNDEFINE erases it; neither touches another resource, and earlier reports for the
resource are current no longer. R188: the fields of a LINE form by their offsets in the body. R2 to R6, R11, R186: exactly
the DEFINEs with a field out of its range, a form that is not the kind's, a pattern with a 1 at or above the width, a drive
pattern equal to the idle one or bad confirm fields are refused BAD_PARAMETER. R16: UNDEFINE is refused BAD_PARAMETER for a
number above 63 and UNDEFINED_RESOURCE for an undefined resource. -/
def Obligations.DefinitionsAreWrittenWhole : Prop :=
  (∀ (p : Port) (x : ResNo) (f : Frame) (s : State), s.OpenFor p f → p = s.supervisor → s.mode = .setup →
    (f.byte 0).toNat = x.val →
    (s.Offered .define p f → f.badDefine = false → (∀ k, s.kindOf x = some k → k.isVacant = true) →
      (f.isLineForm = true → s.lineConflict x f.lineDef = false ∧ s.confirmConflict x f.lineDef = false) →
      ∃ u r, exec (.define p) s = .next u ∧ s.Answered u p f .ok [] ∧ u.resource x = some r
        ∧ r.label = f.word 2 ∧ r.holdLimit = f.word 5 ∧ r.yieldGrace = f.word 7 ∧ r.grantNumber = 0
        ∧ (f.byte 1 = 0 → r.kind = .token (f.byte 4 == 1) .vacant)
        ∧ (f.byte 1 = 1 → r.kind = .line f.lineDef .cooling
            { applied := none, phase := .guard (s.now + (f.word 18).toNat) })
        ∧ (∀ y, y ≠ x → u.resource y = s.resource y)
        ∧ (∀ y ∈ u.lineReports, y.resource = x → y.current = false)
        ∧ u.claims = s.claims ∧ u.slots = s.slots ∧ u.queues = s.queues
        ∧ s.SameSupervision u ∧ s.SameInputs u ∧ s.SameOtherPorts u p ∧ s.SameEvents u)
    ∧ (s.Offered .undefine p f → (s.resource x).isSome = true →
      ∃ u, exec (.undefine p) s = .next u ∧ s.Answered u p f .ok [] ∧ u.resource x = none
        ∧ (∀ y, y ≠ x → u.resource y = s.resource y)
        ∧ (∀ y ∈ u.lineReports, y.resource = x → y.current = false)
        ∧ u.claims = s.claims ∧ u.slots = s.slots ∧ u.queues = s.queues
        ∧ s.SameSupervision u ∧ s.SameInputs u ∧ s.SameOtherPorts u p ∧ s.SameEvents u))
  ∧ (∀ f : Frame, f.lineDef.firstLine = f.byte 9 ∧ f.lineDef.width = f.byte 10 ∧ f.lineDef.idle = f.byte 11
      ∧ (∀ k : Port, f.lineDef.drive[k] = f.byte (12 + k.val)) ∧ f.lineDef.guard = f.word 18
      ∧ (f.byte 20 = 0xFF → f.lineDef.confirm = none)
      ∧ (∀ c : ConfNo, (f.byte 20).toNat = c.val → f.lineDef.confirm =
          some { input := c, engagedHigh := f.byte 21 == 1, timeout := f.word 22 })
      ∧ ∀ i, f.byte i = f.body.getD i 0 ∧ (f.word i).toNat = (f.byte i).toNat + 256 * (f.byte (i + 1)).toNat)
  ∧ (∀ (p : Port) (f : Frame) (s : State), s.OpenFor p f → p = s.supervisor → s.mode = .setup →
      (s.Offered .define p f → f.badDefine = true →
        exec (.define p) s = .next (((s.taking .define p f).endOfEvent).place p f .badParameter [] false))
      ∧ (s.Offered .undefine p f → s.ChecksTheResource .undefine p f))
  ∧ ∀ f : Frame, f.badDefine = true ↔
      63 < (f.byte 0).toNat ∨ 1 < (f.byte 1).toNat ∨ (f.byte 1 = 0 ∧ f.length = 27) ∨ (f.byte 1 = 1 ∧ f.length ≠ 27)
      ∨ 1 < (f.byte 4).toNat
      ∨ (f.length = 27 ∧
          (f.byte 4 = 1 ∨ 31 < (f.byte 9).toNat ∨ (f.byte 10).toNat = 0 ∨ 8 < (f.byte 10).toNat
          ∨ 32 < (f.byte 9).toNat + (f.byte 10).toNat
          ∨ (∃ j, 11 ≤ j ∧ j ≤ 17 ∧ ∃ i, (f.byte 10).toNat ≤ i ∧ (f.byte j).getLsbD i = true)
          ∨ (∃ j, 12 ≤ j ∧ j ≤ 17 ∧ f.byte j = f.byte 11)
          ∨ (f.byte 20 ≠ 0xFF ∧ (15 < (f.byte 20).toNat ∨ 1 < (f.byte 21).toNat ∨ (f.word 22).toNat = 0
              ∨ 5000 < (f.word 22).toNat))))

/-- R12: the checks of a DEFINE against the resource table, in their order: a busy resource, and for kind LINE a shared line
and a confirm input bound twice; the first that fails decides the refusal, and a DEFINE that passes them, a TOKEN one
the first only, is carried out. The premise on widths is the law of R3. -/
def Obligations.DefineChecksInOrder : Prop :=
  ∀ (p : Port) (x : ResNo) (f : Frame) (s : State), s.Offered .define p f → s.OpenFor p f → p = s.supervisor →
    s.mode = .setup → (f.byte 0).toNat = x.val → f.badDefine = false →
    let refused := fun st => exec (.define p) s = .next (((s.taking .define p f).endOfEvent).place p f st [] false)
    let executed := ∃ u, exec (.define p) s = .next u ∧ s.Answered u p f .ok []
    (∀ k, s.kindOf x = some k → k.isVacant = false → refused .resourceBusy)
    ∧ ((∀ k, s.kindOf x = some k → k.isVacant = true) →
      (f.byte 1 = 0 → executed)
      ∧ (f.byte 1 = 1 →
        (∀ y d n, y ≠ x → s.lineDef y = some d → d.covers n = true → f.lineDef.covers n = true → refused .lineConflict)
        ∧ ((∀ y d n, y ≠ x → s.lineDef y = some d → d.covers n = true → f.lineDef.covers n = false) →
          (∀ y d, s.lineDef y = some d → 1 ≤ d.width.toNat) →
          (∀ y d b c, y ≠ x → s.lineDef y = some d → d.confirm = some b → f.lineDef.confirm = some c →
            b.input = c.input → refused .confirmConflict)
          ∧ ((∀ y d b c, y ≠ x → s.lineDef y = some d → d.confirm = some b → f.lineDef.confirm = some c →
            b.input ≠ c.input) → executed))))

/-- R116, R154: SET_LIMITS in SETUP stores the three values; a LAPSED session whose miss count is at or above the new
threshold is severed for KEEPALIVE, another whose streak is at or above the new recovery count becomes LIVE, and every
other session stays as it is; a threshold or recovery count outside 1 to 15 refuses the request. -/
def Obligations.LimitsReachTheSessions : Prop :=
  ∀ (p : Port) (f : Frame) (s : State), s.Offered .setLimits p f → s.OpenFor p f → p = s.supervisor → s.mode = .setup →
    let t := s.taking .setLimits p f
    let inRange := fun b : Byte => 1 ≤ b.toNat ∧ b.toNat ≤ 15
    (¬ (inRange (f.byte 0) ∧ inRange (f.byte 1)) →
      exec (.setLimits p) s = .next (t.place p f .badParameter [] false))
    ∧ (inRange (f.byte 0) → inRange (f.byte 1) → ∃ u, exec (.setLimits p) s = .next u
      ∧ s.Answered u p f .ok [f.byte 0, f.byte 1, f.byte 2]
      ∧ u.threshold = (f.byte 0).toNat ∧ u.recovery = (f.byte 1).toNat ∧ u.filterTime = (f.byte 2).toNat
      ∧ u.mode = s.mode ∧ u.supervisor = s.supervisor ∧ s.SameInputs u
      ∧ (∀ q o l, (t.session q).state = .lapsed o l → (f.byte 0).toNat ≤ l.missCount →
          ∃ r, u.session q = { incarnation := s.incarnation q, state := .severed r } ∧ r.reason = .keepalive
            ∧ r.incarnation = s.incarnation q ∧ r.clientId = o.clientId)
      ∧ (∀ q o l, (t.session q).state = .lapsed o l → l.missCount < (f.byte 0).toNat → (f.byte 1).toNat ≤ l.streak →
          u.session q = { incarnation := s.incarnation q, state := .live o }
          ∧ { port := q, incarnation := s.incarnation q } ∈ u.liveReports)
      ∧ (∀ q o l, (t.session q).state = .lapsed o l → l.missCount < (f.byte 0).toNat → l.streak < (f.byte 1).toNat →
          u.session q = t.session q)
      ∧ (∀ q, (∀ o l, (t.session q).state ≠ .lapsed o l) → u.session q = t.session q))

/-- R146 to R150: SET_MODE carried out: SERVICE from SETUP or QUIESCE; QUIESCE from SERVICE, which withdraws every WAITING
request and passes on to SETUP where no claim is left; the present mode, which changes nothing; each change told to every
open session; BAD_PARAMETER for a byte that names no mode. -/
def Obligations.ModeChanges : Prop :=
  ∀ (p : Port) (f : Frame) (s : State), s.Offered .setMode p f → s.OpenFor p f → p = s.supervisor →
    (2 < (f.byte 0).toNat →
      exec (.setMode p) s = .next ((s.taking .setMode p f).place p f .badParameter [] false))
    ∧ (f.byte 0 = s.mode.code →
      exec (.setMode p) s = .next ((s.taking .setMode p f).place p f .ok [s.mode.code, s.mode.code] true))
    ∧ (f.byte 0 = 1 → s.mode ≠ .service → ∃ u, exec (.setMode p) s = .next u ∧ u.mode = .service
      ∧ s.Answered u p f .ok [s.mode.code, 1]
      ∧ (∀ q, s.isOpen q = true → u.HasNotice q (.modeChanged .service))
      ∧ (∀ q, s.isOpen q = false → u.queue q = s.queue q)
      ∧ true ∉ u.drainReports
      ∧ (s.claims = [] → (∀ q k, (s.slot q k).isOpen = false) →
          s.SameClaimTable u ∧ ∀ q, s.isOpen q = true → u.queue q = (s.queue q).add (.modeChanged .service))
      ∧ u.supervisor = s.supervisor ∧ u.threshold = s.threshold ∧ u.recovery = s.recovery ∧ u.filterTime = s.filterTime
      ∧ s.SameInputs u ∧ s.SameEvents u ∧ ∀ q, q ≠ p → u.session q = s.session q ∧ u.port q = s.port q)
    ∧ (f.byte 0 = 2 → s.mode = .service → s.TableLaw → ∃ u, exec (.setMode p) s = .next u
      ∧ u.claims = s.claims.filter (fun c => !c.state.isWaiting)
      ∧ (u.claims = [] → u.mode = .setup ∧ ∀ q, s.isOpen q = true → u.HasNotice q (.modeChanged .setup))
      ∧ (u.claims ≠ [] → u.claims.length ≤ 192 → u.mode = .quiesce
          ∧ ∀ q, s.isOpen q = true → u.HasNotice q (.modeChanged .quiesce))
      ∧ s.Answered u p f .ok [1, u.mode.code]
      ∧ (∀ q k fl tm, s.slot q k = .waiting fl tm → u.slot q k = .done fl.incarnation .withdrawn
          ∧ (s.isOpen q = true → u.HasNotice q (.withdrawn k)))
      ∧ (∀ q k, (s.slot q k).isWaiting = false → u.slot q k = s.slot q k)
      ∧ u.resources = s.resources ∧ u.lineReports = s.lineReports
      ∧ u.supervisor = s.supervisor ∧ u.threshold = s.threshold ∧ u.recovery = s.recovery ∧ u.filterTime = s.filterTime
      ∧ s.SameInputs u ∧ s.SameEvents u ∧ ∀ q, q ≠ p → u.session q = s.session q ∧ u.port q = s.port q)

/-- R153: SET_SUPERVISOR moves the role, and only the role; a port above 5 is refused. -/
def Obligations.SupervisorRoleMoves : Prop :=
  ∀ (p : Port) (f : Frame) (s : State), s.Offered .setSupervisor p f → s.OpenFor p f → p = s.supervisor →
    (5 < (f.byte 0).toNat →
      exec (.setSupervisor p) s = .next ((s.taking .setSupervisor p f).place p f .badParameter [] false))
    ∧ ∀ k : Port, (f.byte 0).toNat = k.val →
        exec (.setSupervisor p) s =
          .next (({ s.taking .setSupervisor p f with supervisor := k } : State).place p f .ok [byteOf k] true)

/-- R68: FORCE_RELEASE revokes every holding of the resource and fails every request reserved on it. The claims waiting for
it are not removed: they stay in their order with their wait timers running, or go on to be reserved or granted. The
resource is not faulted, and where nobody waits for it it is left as R44 and R56 state. A resource number above 63 is
refused BAD_PARAMETER, an undefined one UNDEFINED_RESOURCE. The premise is the law of the table (R22, R23). -/
def Obligations.ForceReleaseTakesTheResourceBack : Prop :=
  (∀ (p : Port) (f : Frame) (s : State), s.Offered .forceRelease p f → s.OpenFor p f → p = s.supervisor →
    s.ChecksTheResource .forceRelease p f)
  ∧ ∀ (p : Port) (x : ResNo) (f : Frame) (r : Resource) (s : State), s.Offered .forceRelease p f → s.OpenFor p f →
    p = s.supervisor → (f.byte 0).toNat = x.val → s.resource x = some r → s.PoolLaw → s.TableLaw →
    ∃ u, exec (.forceRelease p) s = .next u ∧ s.Answered u p f .ok []
      ∧ (∀ c ∈ s.assigned x, ∀ d ∈ u.claims, ¬ (d.owner = c.owner ∧ d.resource = x))
      ∧ (∀ c ∈ s.assigned x, ∀ g ph, c.state = .held g ph → s.isOpen c.owner = true →
          u.HasNotice c.owner (.revoked x g .supervisor))
      ∧ (∀ c ∈ s.assigned x, ∀ h, c.state = .reserved h → (∃ i, u.slot c.owner h = .done i .failed)
          ∧ (∀ d ∈ u.claims, Claim.ofRequest c.owner h d = false)
          ∧ (s.isOpen c.owner = true → u.HasNotice c.owner (.failed h x .supervisor)))
      ∧ (∀ c ∈ s.waitQueue x, ∃ d ∈ u.claims, d.owner = c.owner ∧ d.resource = x ∧ d.mode = c.mode
          ∧ (d.state = c.state ∨ d.state.isAssigned = true))
      ∧ (u.waitQueue x).Sublist (s.waitQueue x)
      ∧ (∀ q k fl tm, s.slot q k = .waiting fl tm →
          u.slot q k = .waiting fl tm ∨ (∃ pend, u.slot q k = .assembling fl pend) ∨ u.slot q k = .done fl.incarnation .granted)
      ∧ (∀ q k, (s.slot q k).isOpen = false → u.slot q k = s.slot q k)
      ∧ (∃ k, u.kindOf x = some k ∧ k.isFaulted = r.kind.isFaulted)
      ∧ (s.waitQueue x = [] → s.assigned x ≠ [] → s.ResourceUnwound u x r)
      ∧ (s.waitQueue x = [] → s.assigned x = [] → u = ((s.taking .forceRelease p f).endOfEvent).place p f .ok [] true)
      ∧ s.SameSupervision u ∧ s.SameInputs u ∧ s.SameEvents u
      ∧ ∀ q, q ≠ p → u.session q = s.session q ∧ u.port q = s.port q

/-- R70: DISABLE revokes every holding of the resource, fails every request that names it, and faults it with reason
DISABLED and its idle pattern driven. The premise is the law of the table (R22, R23). R69: a resource number above 63 is
refused BAD_PARAMETER, an undefined one UNDEFINED_RESOURCE. -/
def Obligations.DisableFaultsTheResource : Prop :=
  (∀ (p : Port) (f : Frame) (s : State), s.Offered .disable p f → s.OpenFor p f → p = s.supervisor →
    s.ChecksTheResource .disable p f)
  ∧ ∀ (p : Port) (x : ResNo) (f : Frame) (s : State), s.Offered .disable p f → s.OpenFor p f → p = s.supervisor →
    (f.byte 0).toNat = x.val → (s.resource x).isSome = true → s.PoolLaw → s.TableLaw →
    ∃ u, exec (.disable p) s = .next u ∧ s.Answered u p f .ok []
      ∧ (∀ c ∈ u.claims, c.resource ≠ x)
      ∧ (∀ sh st, s.kindOf x = some (.token sh st) → u.kindOf x = some (.token sh .faulted))
      ∧ (∀ d st lu, s.kindOf x = some (.line d st lu) →
          u.kindOf x = some (.line d (.faulted .disabled) { applied := none, phase := .quiet }))
      ∧ (∀ c ∈ s.claims, ∀ g ph, c.resource = x → c.state = .held g ph → s.isOpen c.owner = true →
          u.HasNotice c.owner (.revoked x g .disabled))
      ∧ (∀ c ∈ s.claims, ∀ h, c.resource = x → c.state.handle = some h → (∃ i, u.slot c.owner h = .done i .failed)
          ∧ (s.isOpen c.owner = true → u.HasNotice c.owner (.failed h x .disabled)))
      ∧ (∀ q k, (s.slot q k).isOpen = false → u.slot q k = s.slot q k)
      ∧ s.SameSupervision u ∧ s.SameInputs u ∧ s.SameEvents u
      ∧ ∀ q, q ≠ p → u.session q = s.session q ∧ u.port q = s.port q

/-- R97: CLEAR_FAULT of a FAULTED LINE resource for which nobody waits leaves it COOLING with a full guard, of a FAULTED
TOKEN resource VACANT, and of any other resource as it is. A resource number above 63 is refused BAD_PARAMETER, an undefined
one UNDEFINED_RESOURCE. -/
def Obligations.ClearFaultReturnsTheResource : Prop :=
  (∀ (p : Port) (f : Frame) (s : State), s.Offered .clearFault p f → s.OpenFor p f → p = s.supervisor →
    s.ChecksTheResource .clearFault p f)
  ∧ ∀ (p : Port) (x : ResNo) (f : Frame) (r : Resource) (s : State), s.Offered .clearFault p f → s.OpenFor p f →
    p = s.supervisor → (f.byte 0).toNat = x.val → s.resource x = some r →
    let t := s.taking .clearFault p f
    (r.kind.isFaulted = false → exec (.clearFault p) s = .next ((t.endOfEvent).place p f .ok [] true))
    ∧ (r.kind.isFaulted = true → ∃ u, exec (.clearFault p) s = .next u ∧ s.Answered u p f .ok []
      ∧ (s.waitQueue x = [] ∨ s.mode ≠ .service →
        (s.TableLaw ∨ s.waitQueue x = []) →
          (∀ sh, r.kind = .token sh .faulted → u.resource x = some { r with kind := .token sh .vacant })
          ∧ (∀ d y lu, r.kind = .line d (.faulted y) lu → u.resource x = some
              { r with kind := .line d .cooling { applied := none, phase := .guard (s.now + d.guard.toNat) } })
          ∧ u.claims = s.claims ∧ u.slots = s.slots ∧ u.queues = s.queues ∧ ∀ y, y ≠ x → u.resource y = s.resource y)
      ∧ u.kindOf x ≠ some r.kind
      ∧ s.SameSupervision u ∧ s.SameInputs u ∧ s.SameEvents u
      ∧ ∀ q, q ≠ p → u.session q = s.session q ∧ u.port q = s.port q)

/-- R19, R53, R100, R126, R142, R156: RESTART returns every claim and slot, severs every open session with reason RESTART,
and sets every defined resource VACANT or COOLING with a full guard; a severed port's inbound frames are discarded and its
reply cache is emptied, on the supervisor's own port to take the RESTART's reply (R155, R173); definitions, grant numbers,
the supervisor port, the limits, the rates and the pointers are kept, but that Supervision has served the port last. -/
def Obligations.RestartClearsThePart : Prop :=
  ∀ (p : Port) (f : Frame) (s : State), s.Offered .restart p f → s.OpenFor p f → p = s.supervisor →
    ∃ u, exec (.restart p) s = .next u
      ∧ s.Answered u p f .ok [byteOf ((List.finRange 6).countP fun k => s.isOpen k), byteOf s.claims.length]
      ∧ u.claims = [] ∧ (∀ q k, u.slot q k = .free) ∧ u.mode = .setup
      ∧ (∀ q o, (s.session q).state.opened = some o →
          u.session q =
            { incarnation := s.incarnation q
              state := .severed
                { reason := .restart, incarnation := s.incarnation q, clientId := o.clientId
                  holdings := (s.holdingsOf q).length, requests := s.openRequests q } }
          ∧ u.queue q = { s.queue q with entries := [] } ∧ (u.port q).inbound = []
          ∧ (q ≠ p → (u.port q).cache = none))
      ∧ (∀ y ∈ (u.port p).replies.getLast?,
          (u.port p).cache = some { kind := f.kind, tag := f.tag, inc := f.inc, reply := y.bytes })
      ∧ (∀ q, s.isOpen q = false → u.session q = s.session q ∧ u.queue q = s.queue q ∧ u.port q = s.port q)
      ∧ (∀ x r sh st, s.resource x = some r → r.kind = .token sh st →
          u.resource x = some { r with kind := .token sh .vacant })
      ∧ (∀ x r d st lu, s.resource x = some r → r.kind = .line d st lu →
          u.resource x = some
            { r with kind := .line d .cooling { applied := none, phase := .guard (s.now + d.guard.toNat) } })
      ∧ (∀ x, s.resource x = none → u.resource x = none)
      ∧ (∀ y ∈ u.lineReports, s.isLineRes y.resource = true → y.current = false) ∧ true ∉ u.drainReports
      ∧ u.supervisor = s.supervisor ∧ u.threshold = s.threshold ∧ u.recovery = s.recovery ∧ u.filterTime = s.filterTime
      ∧ (∀ q, (u.port q).rate = (s.port q).rate ∧ (u.port q).pendingRate = (s.port q).pendingRate)
      ∧ u.servedCT = s.servedCT ∧ u.servedSC = s.servedSC ∧ u.servedNS = s.servedNS ∧ u.servedSV = p
      ∧ s.SameInputs u ∧ s.SameEvents u

/-! ## Timers and internal events of the Claim Table -/

/-- R114: the "LIVE again" report is taken: where no head of that session can move, nothing else changes; where its one
head is a request for one free TOKEN resource, that request is granted with its GRANTED notice. -/
def Obligations.LiveAgainMovesTheHeads : Prop :=
  ∀ (p : Port) (r : LiveReport) (pre post : List LiveReport) (s : State),
    s.liveReports = pre ++ r :: post → r.port = p → (∀ a ∈ pre, a.port ≠ p) →
    let t := ({ s with liveReports := pre ++ post } : State)
    ((∀ x ∈ s.headsOf r, ∀ q k, s.headRequest x = some (q, k) → s.ready q k = false) →
      exec (.liveAgain p) s = .next t.endOfEvent)
    ∧ (∀ x h c fl tm res sh st, s.headsOf r = [x] → s.slot p h = .waiting fl tm →
        fl.items.map Item.resource = [x] → s.waitQueue x = [c] →
        (s.claims.filter fun a => Claim.ofRequest p h a) = [c] → s.ready p h = true → s.resource x = some res →
        res.kind = .token sh st →
        ∃ u, exec (.liveAgain p) s = .next u
          ∧ u.slot p h = .done fl.incarnation .granted ∧ (∀ q k, ¬ (q = p ∧ k = h) → u.slot q k = s.slot q k)
          ∧ u.claims = s.claims.map (fun a => if Claim.ofRequest p h a = true then s.granted a else a)
          ∧ u.resource x = some
              { res with grantNumber := res.grantNumber + 1, kind := .token sh .occupied }
          ∧ (∀ y, y ≠ x → u.resource y = s.resource y)
          ∧ u.queue p = (s.queue p).add (.granted h [(x, res.grantNumber + 1)])
          ∧ (∀ q, q ≠ p → u.queue q = s.queue q)
          ∧ u.liveReports = pre ++ post ∧ t.SameOutsideClaimTable u)

/-- R149: a "no claims remain" report: a current one that finds the mode QUIESCE changes it to SETUP and tells every open
session; any other has no effect. -/
def Obligations.DrainReportsEndInSetup : Prop :=
  ∀ (current : Bool) (rest : List Bool) (s : State), s.drainReports = current :: rest →
    let t := ({ s with drainReports := rest } : State)
    (current = false ∨ s.mode ≠ .quiesce → exec .noClaimsRemain s = .next t)
    ∧ (current = true → s.mode = .quiesce → ∃ u, exec .noClaimsRemain s = .next u ∧ u.mode = .setup
      ∧ (∀ q, u.queue q = if s.isOpen q = true then (s.queue q).add (.modeChanged .setup) else s.queue q)
      ∧ u.drainReports = rest ∧ u.claims = s.claims ∧ u.slots = s.slots ∧ u.resources = s.resources
      ∧ u.lineReports = s.lineReports ∧ u.sessions = s.sessions ∧ u.ports = s.ports
      ∧ u.supervisor = s.supervisor ∧ u.threshold = s.threshold ∧ u.recovery = s.recovery ∧ u.filterTime = s.filterTime
      ∧ s.SameInputs u ∧ s.SameEvents u)

/-- R46, R47: the expiry of a wait timer ends the request: its claims are gone, its slot is DONE with outcome EXPIRED and
its session has the notice; a stopped timer does not expire. The time of the event, the later of the present and the expiry,
is the model's choice (log entry 4). -/
def Obligations.WaitExpiryEndsTheRequest : Prop :=
  ∀ (p : Port) (h : Handle) (s : State),
    ((∀ fl t, s.slot p h ≠ .waiting fl (some t)) → exec (.waitExpiry p h) s = .next s)
    ∧ ∀ fl t, s.slot p h = .waiting fl (some t) → ∃ u, exec (.waitExpiry p h) s = .next u
      ∧ u.now = max s.now t ∧ u.slot p h = .done fl.incarnation .expired
      ∧ (∀ c ∈ u.claims, Claim.ofRequest p h c = false)
      ∧ (s.isOpen p = true → u.HasNotice p (.expired h))
      ∧ (∀ q k, (s.slot q k).isOpen = false → u.slot q k = s.slot q k)
      ∧ u.sessions = s.sessions ∧ u.ports = s.ports ∧ s.SameSupervision u ∧ s.SameEvents u
      ∧ u.confirmInputs = s.confirmInputs ∧ u.severInputs = s.severInputs

/-- R61, R62: the expiry of a hold timer: the holding is OVERTIME; where a claim waits it yields with a YIELD notice and a
grace timer, or with grace 0 it is revoked for OVERTIME. The premise is the law of R22. The time of the event, the later of
the present and the expiry, is the model's choice (log entry 4). -/
def Obligations.HoldExpiryYieldsToWaiters : Prop :=
  ∀ (p : Port) (x : ResNo) (c : Claim) (g : Word16) (t : Time) (s : State), s.PoolLaw →
    s.claimOn p x = some c → c.state = .held g (.timing t) →
    let now := max s.now t
    (s.waitQueue x = [] → ∃ u, exec (.holdExpiry p x) s = .next u ∧ u.now = now
      ∧ u.claims = s.claims.map (fun d => if d = c then { c with state := .held g .overtime } else d)
      ∧ u.slots = s.slots ∧ u.queues = s.queues ∧ u.resources = s.resources ∧ u.lineReports = s.lineReports
      ∧ u.sessions = s.sessions ∧ u.ports = s.ports ∧ s.SameSupervision u ∧ s.SameEvents u)
    ∧ (∀ grace, s.waitQueue x ≠ [] → s.graceOf x = some grace → grace ≠ 0 →
      ∃ u, exec (.holdExpiry p x) s = .next u ∧ u.now = now
        ∧ u.claims = s.claims.map (fun d =>
            if d = c then { c with state := .held g (.yielding (now + grace.toNat * 100)) } else d)
        ∧ (s.isOpen p = true → u.queue p = (s.queue p).add (.yieldDue x g grace))
        ∧ (∀ q, q ≠ p → u.queue q = s.queue q)
        ∧ u.slots = s.slots ∧ u.resources = s.resources ∧ u.lineReports = s.lineReports
        ∧ u.sessions = s.sessions ∧ u.ports = s.ports ∧ s.SameSupervision u ∧ s.SameEvents u)
    ∧ (s.waitQueue x ≠ [] → s.graceOf x = some 0 → ∃ u, exec (.holdExpiry p x) s = .next u ∧ u.now = now
        ∧ (∀ d ∈ u.claims, ¬ (d.owner = p ∧ d.resource = x))
        ∧ (s.isOpen p = true → u.HasNotice p (.revoked x g .overtime))
        ∧ u.sessions = s.sessions ∧ u.ports = s.ports ∧ s.SameSupervision u ∧ s.SameEvents u)

/-- R63, R64: the expiry of a grace timer revokes the holding for OVERTIME, whether or not a claim waits. The premise is
the law of R22. The time of the event, the later of the present and the expiry, is the model's choice (log entry 4). -/
def Obligations.GraceExpiryRevokes : Prop :=
  ∀ (p : Port) (x : ResNo) (c : Claim) (g : Word16) (t : Time) (s : State), s.PoolLaw →
    s.claimOn p x = some c → c.state = .held g (.yielding t) →
    ∃ u, exec (.graceExpiry p x) s = .next u ∧ u.now = max s.now t
      ∧ (∀ d ∈ u.claims, ¬ (d.owner = p ∧ d.resource = x))
      ∧ (s.isOpen p = true → u.HasNotice p (.revoked x g .overtime))
      ∧ (s.waitQueue x = [] → u.claims = s.claims.erase c ∧ u.slots = s.slots
          ∧ (s.isOpen p = true → u.queue p = (s.queue p).add (.revoked x g .overtime))
          ∧ (∀ d lu, s.kindOf x = some (.line d .held lu) → u.kindOf x =
              some (.line d .cooling { applied := none, phase := .guard (max s.now t + d.guard.toNat) }))
          ∧ ∀ y, y ≠ x → u.resource y = s.resource y)
      ∧ u.sessions = s.sessions ∧ u.ports = s.ports ∧ s.SameSupervision u ∧ s.SameEvents u

/-! ## The Line Unit -/

/-- R74, R87, R90: the expiry of a phase timer ends the phase and makes its report; R77: a report that is not current has
no effect when it is taken. The time of the expiry's event, the later of the present and the expiry, is the model's choice
(log entry 4). -/
def Obligations.PhaseTimersReportAndStaleReportsDoNothing : Prop :=
  ∀ (x : ResNo) (s : State),
    (∀ d st a ph t k, s.kindOf x = some (.line d st { applied := a, phase := ph }) →
      (ph = .guard t ∧ k = LineReportKind.guardElapsed ∨ ph = .verify t ∧ k = .verifyTimeout
        ∨ ph = .engage t ∧ k = .engageTimeout) →
      ∃ u, exec (.phaseTimerExpiry x) s = .next u ∧ u.now = max s.now t
        ∧ u.kindOf x = some (.line d st { applied := a, phase := .quiet })
        ∧ (∀ y, y ≠ x → u.resource y = s.resource y)
        ∧ u.lineReports = s.lineReports ++ [{ resource := x, kind := k, current := true }]
        ∧ u.claims = s.claims ∧ u.slots = s.slots ∧ u.queues = s.queues ∧ u.sessions = s.sessions ∧ u.ports = s.ports
        ∧ s.SameSupervision u ∧ s.SameEvents u)
    ∧ ∀ (k : LineReportKind) (i : Instr),
        (k = .guardElapsed ∧ i = .guardElapsed x ∨ k = .releaseSeen ∧ i = .releaseSeen x
          ∨ k = .verifyTimeout ∧ i = .verifyTimeout x ∨ k = .engagedSeen ∧ i = .engagedSeen x
          ∨ k = .engageTimeout ∧ i = .engageTimeout x ∨ k = .confirmationLost ∧ i = .confirmationLost x) →
        s.oldestReport x k = some { resource := x, kind := k, current := false } →
        exec i s =
          .next (({ s with lineReports := s.lineReports.eraseP fun r => r.resource == x } : State).endOfEvent)

/-- R78, R81, R87, R90, R93: the filter of a confirm input, and what a change of its filtered level does to a resource
bound to it by its phase: it ends VERIFY, ENGAGE and WATCH with their reports, and means nothing in any other phase. The
model's choices: the time of the event, the later of the present and the end of the filter time (log entry 4); a raw level
given again and a filter with nothing due change nothing (log entry 7). -/
def Obligations.ConfirmInputsEndPhases : Prop :=
  ∀ (c : ConfNo) (s : State),
    (∀ level, s.confirmInputs[c].raw ≠ level →
      exec (.confirmInputChange c level) s =
        .next (s.setConfirm c { s.confirmInputs[c] with raw := level, changed := s.now }))
    ∧ (∀ level, s.confirmInputs[c].raw = level → exec (.confirmInputChange c level) s = .next s)
    ∧ (s.confirmInputs[c].raw = s.confirmInputs[c].filtered → exec (.confirmFilterChange c) s = .next s)
    ∧ (s.confirmInputs[c].raw ≠ s.confirmInputs[c].filtered → ∃ u, exec (.confirmFilterChange c) s = .next u
      ∧ u.now = max s.now (s.confirmInputs[c].changed + s.filterTime * 10)
      ∧ u.confirmInputs[c] = { s.confirmInputs[c] with filtered := s.confirmInputs[c].raw }
      ∧ (∀ e, e ≠ c → u.confirmInputs[e] = s.confirmInputs[e])
      ∧ (∀ x d st a ph b, s.kindOf x = some (.line d st { applied := a, phase := ph }) → d.confirm = some b →
          b.input = c →
          let engaged := s.confirmInputs[c].raw == b.engagedHigh
          let ends := fun ph' k =>
            u.kindOf x = some (.line d st { applied := a, phase := ph' })
            ∧ { resource := x, kind := k, current := true } ∈ u.lineReports
          (∀ t, ph = .verify t → engaged = false → ends .quiet LineReportKind.releaseSeen)
          ∧ (∀ t, ph = .engage t → engaged = true → ends .watch .engagedSeen)
          ∧ (ph = .watch → engaged = false → ends .quiet .confirmationLost)
          ∧ (ph = .quiet ∨ (∃ t, ph = .guard t) → u.kindOf x = s.kindOf x))
      ∧ (∀ x, (∀ d, s.lineDef x = some d → ∀ b, d.confirm = some b → b.input ≠ c) → u.resource x = s.resource x)
      ∧ u.claims = s.claims ∧ u.slots = s.slots ∧ u.queues = s.queues ∧ u.sessions = s.sessions ∧ u.ports = s.ports
      ∧ u.severInputs = s.severInputs ∧ s.SameSupervision u ∧ s.SameEvents u)

/-- R3, R75: a line in no defined group is high impedance; a line in a group carries its bit of the pattern that the
resource applies, the idle pattern or a port's drive pattern. The premise of the second clause is the law of R3. -/
def Obligations.LineLevelsFollowTheGroups : Prop :=
  ∀ (s : State) (n : LineNo),
    ((∀ x d, s.lineDef x = some d → d.covers n.val = false) → s.lineLevel n = .highImpedance)
    ∧ (s.DefinitionLaw → ∀ x d st lu, s.kindOf x = some (.line d st lu) → ∀ i < d.width.toNat,
        n.val = d.firstLine.toNat + i →
        (lu.applied = none → s.lineLevel n = if d.idle.getLsbD i = true then .high else .low)
        ∧ ∀ k, lu.applied = some k → s.lineLevel n = if d.drive[k].getLsbD i = true then .high else .low)

/-- R83, R85, R88: a current "guard elapsed" makes a COOLING resource VACANT, and takes one in GUARD on to VERIFY where its
confirm input stands at the engaged level and to ENGAGE with the reserving port's drive pattern otherwise; a current
"release seen" takes one from VERIFY to ENGAGE. -/
def Obligations.HandoverFollowsTheReports : Prop :=
  ∀ (x : ResNo) (d : LineDef) (st : LineState) (lu : PhaseRecord) (s : State), s.kindOf x = some (.line d st lu) →
    (s.oldestReport x .guardElapsed = some { resource := x, kind := .guardElapsed, current := true } →
      (st = .cooling → ∃ u, exec (.guardElapsed x) s = .next u ∧ u.kindOf x = some (.line d .vacant lu)
        ∧ (∀ y, y ≠ x → u.resource y = s.resource y)
        ∧ u.lineReports = s.lineReports.eraseP (fun r => r.resource == x)
        ∧ u.claims = s.claims ∧ u.slots = s.slots ∧ u.queues = s.queues ∧ s.SameOutsideClaimTable u)
      ∧ (∀ c, st = .guard → s.assigned x = [c] → c.mode = .exclusive → ∃ u, exec (.guardElapsed x) s = .next u
        ∧ (∀ b, d.confirm = some b → s.engagedLevel b = true →
            u.kindOf x = some (.line d .verify
              { applied := lu.applied, phase := .verify (s.now + b.timeout.toNat * 100) }))
        ∧ (∀ b, d.confirm = some b → s.engagedLevel b = false →
            u.kindOf x = some (.line d .engage
              { applied := some c.owner, phase := .engage (s.now + b.timeout.toNat * 100) }))
        ∧ (d.confirm = none →
            u.kindOf x = some (.line d .engage { applied := some c.owner, phase := .quiet })
            ∧ { resource := x, kind := .engagedSeen, current := true } ∈ u.lineReports)
        ∧ (∀ y, y ≠ x → u.resource y = s.resource y)
        ∧ u.claims = s.claims ∧ u.slots = s.slots ∧ u.queues = s.queues ∧ s.SameOutsideClaimTable u))
    ∧ (s.oldestReport x .releaseSeen = some { resource := x, kind := .releaseSeen, current := true } →
      ∀ c b, st = .verify → s.assigned x = [c] → c.mode = .exclusive → d.confirm = some b →
      ∃ u, exec (.releaseSeen x) s = .next u
        ∧ (s.engagedLevel b = false →
            u.kindOf x = some (.line d .engage
              { applied := some c.owner, phase := .engage (s.now + b.timeout.toNat * 100) }))
        ∧ (s.engagedLevel b = true →
            u.kindOf x = some (.line d .engage { applied := some c.owner, phase := .watch })
            ∧ { resource := x, kind := .engagedSeen, current := true } ∈ u.lineReports)
        ∧ (∀ y, y ≠ x → u.resource y = s.resource y)
        ∧ u.claims = s.claims ∧ u.slots = s.slots ∧ u.queues = s.queues ∧ s.SameOutsideClaimTable u)

/-- R48, R66, R89, R92, R93: a current "verify timeout", "engage timeout" or "confirmation lost" of a reserved resource
faults it with its reason and its idle pattern driven, and fails the request with a FAILED notice; a "confirmation lost"
of a HELD one revokes the holding with a REVOKED notice. The premise is the law of the table (R23). -/
def Obligations.ConfirmationFaultsEndTheRequest : Prop :=
  ∀ (x : ResNo) (d : LineDef) (st : LineState) (lu : PhaseRecord) (s : State), s.TableLaw → s.PoolLaw →
    s.kindOf x = some (.line d st lu) → ∀ (k : LineReportKind) (i : Instr) (reason : FaultReason),
    s.oldestReport x k = some { resource := x, kind := k, current := true } →
    (k = .verifyTimeout ∧ i = .verifyTimeout x ∧ st = .verify ∧ reason = .stuckEngaged
      ∨ k = .engageTimeout ∧ i = .engageTimeout x ∧ st = .engage ∧ reason = .engageTimeout
      ∨ k = .confirmationLost ∧ i = .confirmationLost x ∧ st = .engage ∧ reason = .confirmLost
      ∨ k = .confirmationLost ∧ i = .confirmationLost x ∧ st = .held ∧ reason = .confirmLost) →
    ∃ u, exec i s = .next u
      ∧ u.kindOf x = some (.line d (.faulted reason) { applied := none, phase := .quiet })
      ∧ (∀ c ∈ s.assigned x, ∀ h, st ≠ .held → c.state = .reserved h →
          (∃ n, u.slot c.owner h = .done n .failed) ∧ (∀ e ∈ u.claims, Claim.ofRequest c.owner h e = false)
          ∧ (s.isOpen c.owner = true → u.HasNotice c.owner (.failed h x .fault)))
      ∧ (∀ c ∈ s.assigned x, ∀ g ph, st = .held → c.state = .held g ph →
          (∀ e ∈ u.claims, ¬ (e.owner = c.owner ∧ e.resource = x))
          ∧ (s.isOpen c.owner = true → u.HasNotice c.owner (.revoked x g .confirmLost)))
      ∧ (∀ q h, (s.slot q h).isOpen = false → u.slot q h = s.slot q h)
      ∧ s.SameOutsideClaimTable u

/-! ## The laws of the manual -/

/-- R20, R22, R34: no step lets more claim records be in use than the pool holds, gives a session two claims on one
resource, or lets an EXCLUSIVE claim stand beside another RESERVED or HELD claim. R32: after a step a wait queue holds
claims of the queue before it, unchanged and in their order, and behind them at most one newly filed claim, of a session that
had none on the resource; and every step keeps the order law of the wait queues, by which requests that wait for the same two
resources stand in one order in both. Its further premises are the laws of R22 and R23. -/
def Obligations.StepsKeepTheClaimLaws : Prop :=
  (∀ s t : State, s.PoolLaw → s.ExclusiveLaw → step s = .next t → t.PoolLaw ∧ t.ExclusiveLaw)
  ∧ (∀ (s t : State) (x : ResNo), step s = .next t → ∃ kept filed, t.waitQueue x = kept ++ filed
      ∧ kept.Sublist (s.waitQueue x) ∧ filed.length ≤ 1
      ∧ ∀ c ∈ filed, ∀ d ∈ s.claims, ¬ (d.owner = c.owner ∧ d.resource = x))
  ∧ ∀ s t : State, s.PoolLaw → s.TableLaw → s.WaitOrderLaw → step s = .next t → t.WaitOrderLaw

/-- R23, R145, R149: every step keeps the claims, the slots and the mode in agreement; in SETUP no claim exists. -/
def Obligations.StepsKeepTheTableLaw : Prop :=
  ∀ s t : State, s.TableLaw → step s = .next t → t.TableLaw

/-- R131, R133, R134: every step keeps, in every queue, at most one entry for each key and each sequence number, no number
0, the next number unused, and the delivered entries at the head; such a queue holds at most 73 entries. -/
def Obligations.StepsKeepTheQueueLaws : Prop :=
  (∀ s t : State, (∀ p, (s.queue p).Law ∧ (s.queue p).DeliveredFirst) → step s = .next t →
    ∀ p, (t.queue p).Law ∧ (t.queue p).DeliveredFirst)
  ∧ ∀ q : NoticeQueue, q.Law → q.entries.length ≤ 73

/-- R120: after every step a port whose session is IDLE or SEVERED owns no claim, has every slot FREE and an empty notice
queue. R115: after every step a LAPSED session's miss count lies from 1 to one less than the sever threshold. -/
def Obligations.StepsKeepTheSessionLaws : Prop :=
  (∀ s t : State, s.ClosedPortLaw → step s = .next t → t.ClosedPortLaw)
  ∧ (∀ s t : State, s.MissLaw → step s = .next t → t.MissLaw)

/-- R75, R96: every step keeps the idle pattern applied on every LINE resource but in ENGAGE and HELD, where a drive
pattern is. R3, R4, R6: every step keeps the line definitions within their limits, no pattern with a 1 at or above the width,
every drive pattern different from the idle one, no line in two groups and no confirm input bound twice. -/
def Obligations.StepsKeepTheLineLaws : Prop :=
  (∀ s t : State, s.DriveLaw → step s = .next t → t.DriveLaw)
  ∧ ∀ s t : State, s.DefinitionLaw → step s = .next t → t.DefinitionLaw

/-- R7, R34, R75, R96: every step keeps each resource's state, and the pattern a LINE resource applies, in agreement with
the claims assigned on it: none in VACANT, COOLING and FAULTED, one EXCLUSIVE RESERVED claim in GUARD, VERIFY and ENGAGE,
one EXCLUSIVE HELD claim in LINE HELD, and in ENGAGE and HELD the pattern of that claim's port; R39: an item that is
complete stays in ENGAGE until the grant. -/
def Obligations.StepsKeepTheAssignedLaw : Prop :=
  ∀ s t : State, s.PoolLaw → s.ExclusiveLaw → s.TableLaw → s.AssignedLaw → step s = .next t → t.AssignedLaw

/-- R35: a claim passes from WAITING to RESERVED, or on to HELD, only while the mode is SERVICE and its session is LIVE.
The premise is the law of R22, by which the claim is known again after the step. -/
def Obligations.ReservationsNeedServiceAndALiveSession : Prop :=
  ∀ s t : State, s.PoolLaw → step s = .next t → ∀ c ∈ s.claims, c.state.isWaiting = true →
    ∀ d ∈ t.claims, d.owner = c.owner → d.resource = c.resource → d.state.isAssigned = true →
      t.mode = .service ∧ t.isLive c.owner = true

/-- R82: the guard law. A step in which a LINE resource ceases to drive a drive pattern leaves it guarded since that
moment (or defined no longer), and a step from a state in which it has been guarded since a moment leaves it so, or, in
ENGAGE, driving again with at least the guard interval passed since that moment. -/
def Obligations.GuardIntervalsAreKept : Prop :=
  ∀ (s t : State) (x : ResNo), step s = .next t →
    (s.DriveLaw → s.drives x = true → t.drives x = false → t.GuardedSince x t.now)
    ∧ ∀ since : Time, s.GuardedSince x since →
        t.GuardedSince x since
        ∨ ∃ d st lu, t.kindOf x = some (.line d st lu) ∧ (st = .engage ∨ st = .held) ∧ since + d.guard.toNat ≤ t.now

/-- Every law holds right after reset. -/
def Obligations.ResetHasEveryLaw : Prop :=
  State.reset.PoolLaw ∧ State.reset.ExclusiveLaw ∧ State.reset.TableLaw
  ∧ (∀ p, (State.reset.queue p).Law ∧ (State.reset.queue p).DeliveredFirst)
  ∧ State.reset.ClosedPortLaw ∧ State.reset.MissLaw ∧ State.reset.DriveLaw ∧ State.reset.DefinitionLaw
  ∧ State.reset.AssignedLaw ∧ State.reset.WaitOrderLaw
end

