-- ==== Sys2Proof/Laws/State.lean ====
section
/-! SUPPORT. One lemma per field per update of the state, true by rfl, and what each table reads after an update of
one of its entries. -/

namespace Sys2Proof.Machine

variable (s : State)

/-! ### setSession -/

@[simp] theorem State.setSession_now (p : Port) (v : Session) : (s.setSession p v).now = s.now := rfl
@[simp] theorem State.setSession_claims (p : Port) (v : Session) : (s.setSession p v).claims = s.claims := rfl
@[simp] theorem State.setSession_slots (p : Port) (v : Session) : (s.setSession p v).slots = s.slots := rfl
@[simp] theorem State.setSession_resources (p : Port) (v : Session) : (s.setSession p v).resources = s.resources := rfl
@[simp] theorem State.setSession_confirmInputs (p : Port) (v : Session) : (s.setSession p v).confirmInputs = s.confirmInputs := rfl
@[simp] theorem State.setSession_severInputs (p : Port) (v : Session) : (s.setSession p v).severInputs = s.severInputs := rfl
@[simp] theorem State.setSession_queues (p : Port) (v : Session) : (s.setSession p v).queues = s.queues := rfl
@[simp] theorem State.setSession_ports (p : Port) (v : Session) : (s.setSession p v).ports = s.ports := rfl
@[simp] theorem State.setSession_mode (p : Port) (v : Session) : (s.setSession p v).mode = s.mode := rfl
@[simp] theorem State.setSession_supervisor (p : Port) (v : Session) : (s.setSession p v).supervisor = s.supervisor := rfl
@[simp] theorem State.setSession_threshold (p : Port) (v : Session) : (s.setSession p v).threshold = s.threshold := rfl
@[simp] theorem State.setSession_recovery (p : Port) (v : Session) : (s.setSession p v).recovery = s.recovery := rfl
@[simp] theorem State.setSession_filterTime (p : Port) (v : Session) : (s.setSession p v).filterTime = s.filterTime := rfl
@[simp] theorem State.setSession_servedCT (p : Port) (v : Session) : (s.setSession p v).servedCT = s.servedCT := rfl
@[simp] theorem State.setSession_servedSC (p : Port) (v : Session) : (s.setSession p v).servedSC = s.servedSC := rfl
@[simp] theorem State.setSession_servedNS (p : Port) (v : Session) : (s.setSession p v).servedNS = s.servedNS := rfl
@[simp] theorem State.setSession_servedSV (p : Port) (v : Session) : (s.setSession p v).servedSV = s.servedSV := rfl
@[simp] theorem State.setSession_lineReports (p : Port) (v : Session) : (s.setSession p v).lineReports = s.lineReports := rfl
@[simp] theorem State.setSession_ackEvents (p : Port) (v : Session) : (s.setSession p v).ackEvents = s.ackEvents := rfl
@[simp] theorem State.setSession_liveReports (p : Port) (v : Session) : (s.setSession p v).liveReports = s.liveReports := rfl
@[simp] theorem State.setSession_drainReports (p : Port) (v : Session) : (s.setSession p v).drainReports = s.drainReports := rfl
@[simp] theorem State.setSession_pending (p : Port) (v : Session) : (s.setSession p v).pending = s.pending := rfl

/-! ### setQueue -/

@[simp] theorem State.setQueue_now (p : Port) (v : NoticeQueue) : (s.setQueue p v).now = s.now := rfl
@[simp] theorem State.setQueue_claims (p : Port) (v : NoticeQueue) : (s.setQueue p v).claims = s.claims := rfl
@[simp] theorem State.setQueue_slots (p : Port) (v : NoticeQueue) : (s.setQueue p v).slots = s.slots := rfl
@[simp] theorem State.setQueue_resources (p : Port) (v : NoticeQueue) : (s.setQueue p v).resources = s.resources := rfl
@[simp] theorem State.setQueue_confirmInputs (p : Port) (v : NoticeQueue) : (s.setQueue p v).confirmInputs = s.confirmInputs := rfl
@[simp] theorem State.setQueue_severInputs (p : Port) (v : NoticeQueue) : (s.setQueue p v).severInputs = s.severInputs := rfl
@[simp] theorem State.setQueue_sessions (p : Port) (v : NoticeQueue) : (s.setQueue p v).sessions = s.sessions := rfl
@[simp] theorem State.setQueue_ports (p : Port) (v : NoticeQueue) : (s.setQueue p v).ports = s.ports := rfl
@[simp] theorem State.setQueue_mode (p : Port) (v : NoticeQueue) : (s.setQueue p v).mode = s.mode := rfl
@[simp] theorem State.setQueue_supervisor (p : Port) (v : NoticeQueue) : (s.setQueue p v).supervisor = s.supervisor := rfl
@[simp] theorem State.setQueue_threshold (p : Port) (v : NoticeQueue) : (s.setQueue p v).threshold = s.threshold := rfl
@[simp] theorem State.setQueue_recovery (p : Port) (v : NoticeQueue) : (s.setQueue p v).recovery = s.recovery := rfl
@[simp] theorem State.setQueue_filterTime (p : Port) (v : NoticeQueue) : (s.setQueue p v).filterTime = s.filterTime := rfl
@[simp] theorem State.setQueue_servedCT (p : Port) (v : NoticeQueue) : (s.setQueue p v).servedCT = s.servedCT := rfl
@[simp] theorem State.setQueue_servedSC (p : Port) (v : NoticeQueue) : (s.setQueue p v).servedSC = s.servedSC := rfl
@[simp] theorem State.setQueue_servedNS (p : Port) (v : NoticeQueue) : (s.setQueue p v).servedNS = s.servedNS := rfl
@[simp] theorem State.setQueue_servedSV (p : Port) (v : NoticeQueue) : (s.setQueue p v).servedSV = s.servedSV := rfl
@[simp] theorem State.setQueue_lineReports (p : Port) (v : NoticeQueue) : (s.setQueue p v).lineReports = s.lineReports := rfl
@[simp] theorem State.setQueue_ackEvents (p : Port) (v : NoticeQueue) : (s.setQueue p v).ackEvents = s.ackEvents := rfl
@[simp] theorem State.setQueue_liveReports (p : Port) (v : NoticeQueue) : (s.setQueue p v).liveReports = s.liveReports := rfl
@[simp] theorem State.setQueue_drainReports (p : Port) (v : NoticeQueue) : (s.setQueue p v).drainReports = s.drainReports := rfl
@[simp] theorem State.setQueue_pending (p : Port) (v : NoticeQueue) : (s.setQueue p v).pending = s.pending := rfl

/-! ### setPort -/

@[simp] theorem State.setPort_now (p : Port) (v : PortInterface) : (s.setPort p v).now = s.now := rfl
@[simp] theorem State.setPort_claims (p : Port) (v : PortInterface) : (s.setPort p v).claims = s.claims := rfl
@[simp] theorem State.setPort_slots (p : Port) (v : PortInterface) : (s.setPort p v).slots = s.slots := rfl
@[simp] theorem State.setPort_resources (p : Port) (v : PortInterface) : (s.setPort p v).resources = s.resources := rfl
@[simp] theorem State.setPort_confirmInputs (p : Port) (v : PortInterface) : (s.setPort p v).confirmInputs = s.confirmInputs := rfl
@[simp] theorem State.setPort_severInputs (p : Port) (v : PortInterface) : (s.setPort p v).severInputs = s.severInputs := rfl
@[simp] theorem State.setPort_sessions (p : Port) (v : PortInterface) : (s.setPort p v).sessions = s.sessions := rfl
@[simp] theorem State.setPort_queues (p : Port) (v : PortInterface) : (s.setPort p v).queues = s.queues := rfl
@[simp] theorem State.setPort_mode (p : Port) (v : PortInterface) : (s.setPort p v).mode = s.mode := rfl
@[simp] theorem State.setPort_supervisor (p : Port) (v : PortInterface) : (s.setPort p v).supervisor = s.supervisor := rfl
@[simp] theorem State.setPort_threshold (p : Port) (v : PortInterface) : (s.setPort p v).threshold = s.threshold := rfl
@[simp] theorem State.setPort_recovery (p : Port) (v : PortInterface) : (s.setPort p v).recovery = s.recovery := rfl
@[simp] theorem State.setPort_filterTime (p : Port) (v : PortInterface) : (s.setPort p v).filterTime = s.filterTime := rfl
@[simp] theorem State.setPort_servedCT (p : Port) (v : PortInterface) : (s.setPort p v).servedCT = s.servedCT := rfl
@[simp] theorem State.setPort_servedSC (p : Port) (v : PortInterface) : (s.setPort p v).servedSC = s.servedSC := rfl
@[simp] theorem State.setPort_servedNS (p : Port) (v : PortInterface) : (s.setPort p v).servedNS = s.servedNS := rfl
@[simp] theorem State.setPort_servedSV (p : Port) (v : PortInterface) : (s.setPort p v).servedSV = s.servedSV := rfl
@[simp] theorem State.setPort_lineReports (p : Port) (v : PortInterface) : (s.setPort p v).lineReports = s.lineReports := rfl
@[simp] theorem State.setPort_ackEvents (p : Port) (v : PortInterface) : (s.setPort p v).ackEvents = s.ackEvents := rfl
@[simp] theorem State.setPort_liveReports (p : Port) (v : PortInterface) : (s.setPort p v).liveReports = s.liveReports := rfl
@[simp] theorem State.setPort_drainReports (p : Port) (v : PortInterface) : (s.setPort p v).drainReports = s.drainReports := rfl
@[simp] theorem State.setPort_pending (p : Port) (v : PortInterface) : (s.setPort p v).pending = s.pending := rfl

/-! ### setSlot -/

@[simp] theorem State.setSlot_now (p : Port) (h : Handle) (v : Slot) : (s.setSlot p h v).now = s.now := rfl
@[simp] theorem State.setSlot_claims (p : Port) (h : Handle) (v : Slot) : (s.setSlot p h v).claims = s.claims := rfl
@[simp] theorem State.setSlot_resources (p : Port) (h : Handle) (v : Slot) : (s.setSlot p h v).resources = s.resources := rfl
@[simp] theorem State.setSlot_confirmInputs (p : Port) (h : Handle) (v : Slot) : (s.setSlot p h v).confirmInputs = s.confirmInputs := rfl
@[simp] theorem State.setSlot_severInputs (p : Port) (h : Handle) (v : Slot) : (s.setSlot p h v).severInputs = s.severInputs := rfl
@[simp] theorem State.setSlot_sessions (p : Port) (h : Handle) (v : Slot) : (s.setSlot p h v).sessions = s.sessions := rfl
@[simp] theorem State.setSlot_queues (p : Port) (h : Handle) (v : Slot) : (s.setSlot p h v).queues = s.queues := rfl
@[simp] theorem State.setSlot_ports (p : Port) (h : Handle) (v : Slot) : (s.setSlot p h v).ports = s.ports := rfl
@[simp] theorem State.setSlot_mode (p : Port) (h : Handle) (v : Slot) : (s.setSlot p h v).mode = s.mode := rfl
@[simp] theorem State.setSlot_supervisor (p : Port) (h : Handle) (v : Slot) : (s.setSlot p h v).supervisor = s.supervisor := rfl
@[simp] theorem State.setSlot_threshold (p : Port) (h : Handle) (v : Slot) : (s.setSlot p h v).threshold = s.threshold := rfl
@[simp] theorem State.setSlot_recovery (p : Port) (h : Handle) (v : Slot) : (s.setSlot p h v).recovery = s.recovery := rfl
@[simp] theorem State.setSlot_filterTime (p : Port) (h : Handle) (v : Slot) : (s.setSlot p h v).filterTime = s.filterTime := rfl
@[simp] theorem State.setSlot_servedCT (p : Port) (h : Handle) (v : Slot) : (s.setSlot p h v).servedCT = s.servedCT := rfl
@[simp] theorem State.setSlot_servedSC (p : Port) (h : Handle) (v : Slot) : (s.setSlot p h v).servedSC = s.servedSC := rfl
@[simp] theorem State.setSlot_servedNS (p : Port) (h : Handle) (v : Slot) : (s.setSlot p h v).servedNS = s.servedNS := rfl
@[simp] theorem State.setSlot_servedSV (p : Port) (h : Handle) (v : Slot) : (s.setSlot p h v).servedSV = s.servedSV := rfl
@[simp] theorem State.setSlot_lineReports (p : Port) (h : Handle) (v : Slot) : (s.setSlot p h v).lineReports = s.lineReports := rfl
@[simp] theorem State.setSlot_ackEvents (p : Port) (h : Handle) (v : Slot) : (s.setSlot p h v).ackEvents = s.ackEvents := rfl
@[simp] theorem State.setSlot_liveReports (p : Port) (h : Handle) (v : Slot) : (s.setSlot p h v).liveReports = s.liveReports := rfl
@[simp] theorem State.setSlot_drainReports (p : Port) (h : Handle) (v : Slot) : (s.setSlot p h v).drainReports = s.drainReports := rfl
@[simp] theorem State.setSlot_pending (p : Port) (h : Handle) (v : Slot) : (s.setSlot p h v).pending = s.pending := rfl

/-! ### setResource -/

@[simp] theorem State.setResource_now (x : ResNo) (v : Option Resource) : (s.setResource x v).now = s.now := rfl
@[simp] theorem State.setResource_claims (x : ResNo) (v : Option Resource) : (s.setResource x v).claims = s.claims := rfl
@[simp] theorem State.setResource_slots (x : ResNo) (v : Option Resource) : (s.setResource x v).slots = s.slots := rfl
@[simp] theorem State.setResource_confirmInputs (x : ResNo) (v : Option Resource) : (s.setResource x v).confirmInputs = s.confirmInputs := rfl
@[simp] theorem State.setResource_severInputs (x : ResNo) (v : Option Resource) : (s.setResource x v).severInputs = s.severInputs := rfl
@[simp] theorem State.setResource_sessions (x : ResNo) (v : Option Resource) : (s.setResource x v).sessions = s.sessions := rfl
@[simp] theorem State.setResource_queues (x : ResNo) (v : Option Resource) : (s.setResource x v).queues = s.queues := rfl
@[simp] theorem State.setResource_ports (x : ResNo) (v : Option Resource) : (s.setResource x v).ports = s.ports := rfl
@[simp] theorem State.setResource_mode (x : ResNo) (v : Option Resource) : (s.setResource x v).mode = s.mode := rfl
@[simp] theorem State.setResource_supervisor (x : ResNo) (v : Option Resource) : (s.setResource x v).supervisor = s.supervisor := rfl
@[simp] theorem State.setResource_threshold (x : ResNo) (v : Option Resource) : (s.setResource x v).threshold = s.threshold := rfl
@[simp] theorem State.setResource_recovery (x : ResNo) (v : Option Resource) : (s.setResource x v).recovery = s.recovery := rfl
@[simp] theorem State.setResource_filterTime (x : ResNo) (v : Option Resource) : (s.setResource x v).filterTime = s.filterTime := rfl
@[simp] theorem State.setResource_servedCT (x : ResNo) (v : Option Resource) : (s.setResource x v).servedCT = s.servedCT := rfl
@[simp] theorem State.setResource_servedSC (x : ResNo) (v : Option Resource) : (s.setResource x v).servedSC = s.servedSC := rfl
@[simp] theorem State.setResource_servedNS (x : ResNo) (v : Option Resource) : (s.setResource x v).servedNS = s.servedNS := rfl
@[simp] theorem State.setResource_servedSV (x : ResNo) (v : Option Resource) : (s.setResource x v).servedSV = s.servedSV := rfl
@[simp] theorem State.setResource_lineReports (x : ResNo) (v : Option Resource) : (s.setResource x v).lineReports = s.lineReports := rfl
@[simp] theorem State.setResource_ackEvents (x : ResNo) (v : Option Resource) : (s.setResource x v).ackEvents = s.ackEvents := rfl
@[simp] theorem State.setResource_liveReports (x : ResNo) (v : Option Resource) : (s.setResource x v).liveReports = s.liveReports := rfl
@[simp] theorem State.setResource_drainReports (x : ResNo) (v : Option Resource) : (s.setResource x v).drainReports = s.drainReports := rfl
@[simp] theorem State.setResource_pending (x : ResNo) (v : Option Resource) : (s.setResource x v).pending = s.pending := rfl

/-! ### setConfirm -/

@[simp] theorem State.setConfirm_now (c : ConfNo) (v : InputFilter) : (s.setConfirm c v).now = s.now := rfl
@[simp] theorem State.setConfirm_claims (c : ConfNo) (v : InputFilter) : (s.setConfirm c v).claims = s.claims := rfl
@[simp] theorem State.setConfirm_slots (c : ConfNo) (v : InputFilter) : (s.setConfirm c v).slots = s.slots := rfl
@[simp] theorem State.setConfirm_resources (c : ConfNo) (v : InputFilter) : (s.setConfirm c v).resources = s.resources := rfl
@[simp] theorem State.setConfirm_severInputs (c : ConfNo) (v : InputFilter) : (s.setConfirm c v).severInputs = s.severInputs := rfl
@[simp] theorem State.setConfirm_sessions (c : ConfNo) (v : InputFilter) : (s.setConfirm c v).sessions = s.sessions := rfl
@[simp] theorem State.setConfirm_queues (c : ConfNo) (v : InputFilter) : (s.setConfirm c v).queues = s.queues := rfl
@[simp] theorem State.setConfirm_ports (c : ConfNo) (v : InputFilter) : (s.setConfirm c v).ports = s.ports := rfl
@[simp] theorem State.setConfirm_mode (c : ConfNo) (v : InputFilter) : (s.setConfirm c v).mode = s.mode := rfl
@[simp] theorem State.setConfirm_supervisor (c : ConfNo) (v : InputFilter) : (s.setConfirm c v).supervisor = s.supervisor := rfl
@[simp] theorem State.setConfirm_threshold (c : ConfNo) (v : InputFilter) : (s.setConfirm c v).threshold = s.threshold := rfl
@[simp] theorem State.setConfirm_recovery (c : ConfNo) (v : InputFilter) : (s.setConfirm c v).recovery = s.recovery := rfl
@[simp] theorem State.setConfirm_filterTime (c : ConfNo) (v : InputFilter) : (s.setConfirm c v).filterTime = s.filterTime := rfl
@[simp] theorem State.setConfirm_servedCT (c : ConfNo) (v : InputFilter) : (s.setConfirm c v).servedCT = s.servedCT := rfl
@[simp] theorem State.setConfirm_servedSC (c : ConfNo) (v : InputFilter) : (s.setConfirm c v).servedSC = s.servedSC := rfl
@[simp] theorem State.setConfirm_servedNS (c : ConfNo) (v : InputFilter) : (s.setConfirm c v).servedNS = s.servedNS := rfl
@[simp] theorem State.setConfirm_servedSV (c : ConfNo) (v : InputFilter) : (s.setConfirm c v).servedSV = s.servedSV := rfl
@[simp] theorem State.setConfirm_lineReports (c : ConfNo) (v : InputFilter) : (s.setConfirm c v).lineReports = s.lineReports := rfl
@[simp] theorem State.setConfirm_ackEvents (c : ConfNo) (v : InputFilter) : (s.setConfirm c v).ackEvents = s.ackEvents := rfl
@[simp] theorem State.setConfirm_liveReports (c : ConfNo) (v : InputFilter) : (s.setConfirm c v).liveReports = s.liveReports := rfl
@[simp] theorem State.setConfirm_drainReports (c : ConfNo) (v : InputFilter) : (s.setConfirm c v).drainReports = s.drainReports := rfl
@[simp] theorem State.setConfirm_pending (c : ConfNo) (v : InputFilter) : (s.setConfirm c v).pending = s.pending := rfl

/-! ### setSever -/

@[simp] theorem State.setSever_now (p : Port) (v : InputFilter) : (s.setSever p v).now = s.now := rfl
@[simp] theorem State.setSever_claims (p : Port) (v : InputFilter) : (s.setSever p v).claims = s.claims := rfl
@[simp] theorem State.setSever_slots (p : Port) (v : InputFilter) : (s.setSever p v).slots = s.slots := rfl
@[simp] theorem State.setSever_resources (p : Port) (v : InputFilter) : (s.setSever p v).resources = s.resources := rfl
@[simp] theorem State.setSever_confirmInputs (p : Port) (v : InputFilter) : (s.setSever p v).confirmInputs = s.confirmInputs := rfl
@[simp] theorem State.setSever_sessions (p : Port) (v : InputFilter) : (s.setSever p v).sessions = s.sessions := rfl
@[simp] theorem State.setSever_queues (p : Port) (v : InputFilter) : (s.setSever p v).queues = s.queues := rfl
@[simp] theorem State.setSever_ports (p : Port) (v : InputFilter) : (s.setSever p v).ports = s.ports := rfl
@[simp] theorem State.setSever_mode (p : Port) (v : InputFilter) : (s.setSever p v).mode = s.mode := rfl
@[simp] theorem State.setSever_supervisor (p : Port) (v : InputFilter) : (s.setSever p v).supervisor = s.supervisor := rfl
@[simp] theorem State.setSever_threshold (p : Port) (v : InputFilter) : (s.setSever p v).threshold = s.threshold := rfl
@[simp] theorem State.setSever_recovery (p : Port) (v : InputFilter) : (s.setSever p v).recovery = s.recovery := rfl
@[simp] theorem State.setSever_filterTime (p : Port) (v : InputFilter) : (s.setSever p v).filterTime = s.filterTime := rfl
@[simp] theorem State.setSever_servedCT (p : Port) (v : InputFilter) : (s.setSever p v).servedCT = s.servedCT := rfl
@[simp] theorem State.setSever_servedSC (p : Port) (v : InputFilter) : (s.setSever p v).servedSC = s.servedSC := rfl
@[simp] theorem State.setSever_servedNS (p : Port) (v : InputFilter) : (s.setSever p v).servedNS = s.servedNS := rfl
@[simp] theorem State.setSever_servedSV (p : Port) (v : InputFilter) : (s.setSever p v).servedSV = s.servedSV := rfl
@[simp] theorem State.setSever_lineReports (p : Port) (v : InputFilter) : (s.setSever p v).lineReports = s.lineReports := rfl
@[simp] theorem State.setSever_ackEvents (p : Port) (v : InputFilter) : (s.setSever p v).ackEvents = s.ackEvents := rfl
@[simp] theorem State.setSever_liveReports (p : Port) (v : InputFilter) : (s.setSever p v).liveReports = s.liveReports := rfl
@[simp] theorem State.setSever_drainReports (p : Port) (v : InputFilter) : (s.setSever p v).drainReports = s.drainReports := rfl
@[simp] theorem State.setSever_pending (p : Port) (v : InputFilter) : (s.setSever p v).pending = s.pending := rfl

/-! ### setClaims -/

@[simp] theorem State.setClaims_now (v : List Claim) : (s.setClaims v).now = s.now := rfl
@[simp] theorem State.setClaims_slots (v : List Claim) : (s.setClaims v).slots = s.slots := rfl
@[simp] theorem State.setClaims_resources (v : List Claim) : (s.setClaims v).resources = s.resources := rfl
@[simp] theorem State.setClaims_confirmInputs (v : List Claim) : (s.setClaims v).confirmInputs = s.confirmInputs := rfl
@[simp] theorem State.setClaims_severInputs (v : List Claim) : (s.setClaims v).severInputs = s.severInputs := rfl
@[simp] theorem State.setClaims_sessions (v : List Claim) : (s.setClaims v).sessions = s.sessions := rfl
@[simp] theorem State.setClaims_queues (v : List Claim) : (s.setClaims v).queues = s.queues := rfl
@[simp] theorem State.setClaims_ports (v : List Claim) : (s.setClaims v).ports = s.ports := rfl
@[simp] theorem State.setClaims_mode (v : List Claim) : (s.setClaims v).mode = s.mode := rfl
@[simp] theorem State.setClaims_supervisor (v : List Claim) : (s.setClaims v).supervisor = s.supervisor := rfl
@[simp] theorem State.setClaims_threshold (v : List Claim) : (s.setClaims v).threshold = s.threshold := rfl
@[simp] theorem State.setClaims_recovery (v : List Claim) : (s.setClaims v).recovery = s.recovery := rfl
@[simp] theorem State.setClaims_filterTime (v : List Claim) : (s.setClaims v).filterTime = s.filterTime := rfl
@[simp] theorem State.setClaims_servedCT (v : List Claim) : (s.setClaims v).servedCT = s.servedCT := rfl
@[simp] theorem State.setClaims_servedSC (v : List Claim) : (s.setClaims v).servedSC = s.servedSC := rfl
@[simp] theorem State.setClaims_servedNS (v : List Claim) : (s.setClaims v).servedNS = s.servedNS := rfl
@[simp] theorem State.setClaims_servedSV (v : List Claim) : (s.setClaims v).servedSV = s.servedSV := rfl
@[simp] theorem State.setClaims_lineReports (v : List Claim) : (s.setClaims v).lineReports = s.lineReports := rfl
@[simp] theorem State.setClaims_ackEvents (v : List Claim) : (s.setClaims v).ackEvents = s.ackEvents := rfl
@[simp] theorem State.setClaims_liveReports (v : List Claim) : (s.setClaims v).liveReports = s.liveReports := rfl
@[simp] theorem State.setClaims_drainReports (v : List Claim) : (s.setClaims v).drainReports = s.drainReports := rfl
@[simp] theorem State.setClaims_pending (v : List Claim) : (s.setClaims v).pending = s.pending := rfl

/-! ### setLineReports -/

@[simp] theorem State.setLineReports_now (v : List LineReport) : (s.setLineReports v).now = s.now := rfl
@[simp] theorem State.setLineReports_claims (v : List LineReport) : (s.setLineReports v).claims = s.claims := rfl
@[simp] theorem State.setLineReports_slots (v : List LineReport) : (s.setLineReports v).slots = s.slots := rfl
@[simp] theorem State.setLineReports_resources (v : List LineReport) : (s.setLineReports v).resources = s.resources := rfl
@[simp] theorem State.setLineReports_confirmInputs (v : List LineReport) : (s.setLineReports v).confirmInputs = s.confirmInputs := rfl
@[simp] theorem State.setLineReports_severInputs (v : List LineReport) : (s.setLineReports v).severInputs = s.severInputs := rfl
@[simp] theorem State.setLineReports_sessions (v : List LineReport) : (s.setLineReports v).sessions = s.sessions := rfl
@[simp] theorem State.setLineReports_queues (v : List LineReport) : (s.setLineReports v).queues = s.queues := rfl
@[simp] theorem State.setLineReports_ports (v : List LineReport) : (s.setLineReports v).ports = s.ports := rfl
@[simp] theorem State.setLineReports_mode (v : List LineReport) : (s.setLineReports v).mode = s.mode := rfl
@[simp] theorem State.setLineReports_supervisor (v : List LineReport) : (s.setLineReports v).supervisor = s.supervisor := rfl
@[simp] theorem State.setLineReports_threshold (v : List LineReport) : (s.setLineReports v).threshold = s.threshold := rfl
@[simp] theorem State.setLineReports_recovery (v : List LineReport) : (s.setLineReports v).recovery = s.recovery := rfl
@[simp] theorem State.setLineReports_filterTime (v : List LineReport) : (s.setLineReports v).filterTime = s.filterTime := rfl
@[simp] theorem State.setLineReports_servedCT (v : List LineReport) : (s.setLineReports v).servedCT = s.servedCT := rfl
@[simp] theorem State.setLineReports_servedSC (v : List LineReport) : (s.setLineReports v).servedSC = s.servedSC := rfl
@[simp] theorem State.setLineReports_servedNS (v : List LineReport) : (s.setLineReports v).servedNS = s.servedNS := rfl
@[simp] theorem State.setLineReports_servedSV (v : List LineReport) : (s.setLineReports v).servedSV = s.servedSV := rfl
@[simp] theorem State.setLineReports_ackEvents (v : List LineReport) : (s.setLineReports v).ackEvents = s.ackEvents := rfl
@[simp] theorem State.setLineReports_liveReports (v : List LineReport) : (s.setLineReports v).liveReports = s.liveReports := rfl
@[simp] theorem State.setLineReports_drainReports (v : List LineReport) : (s.setLineReports v).drainReports = s.drainReports := rfl
@[simp] theorem State.setLineReports_pending (v : List LineReport) : (s.setLineReports v).pending = s.pending := rfl

/-! ### passTo -/

@[simp] theorem State.passTo_claims (t : Time) : (s.passTo t).claims = s.claims := rfl
@[simp] theorem State.passTo_slots (t : Time) : (s.passTo t).slots = s.slots := rfl
@[simp] theorem State.passTo_resources (t : Time) : (s.passTo t).resources = s.resources := rfl
@[simp] theorem State.passTo_confirmInputs (t : Time) : (s.passTo t).confirmInputs = s.confirmInputs := rfl
@[simp] theorem State.passTo_severInputs (t : Time) : (s.passTo t).severInputs = s.severInputs := rfl
@[simp] theorem State.passTo_sessions (t : Time) : (s.passTo t).sessions = s.sessions := rfl
@[simp] theorem State.passTo_queues (t : Time) : (s.passTo t).queues = s.queues := rfl
@[simp] theorem State.passTo_ports (t : Time) : (s.passTo t).ports = s.ports := rfl
@[simp] theorem State.passTo_mode (t : Time) : (s.passTo t).mode = s.mode := rfl
@[simp] theorem State.passTo_supervisor (t : Time) : (s.passTo t).supervisor = s.supervisor := rfl
@[simp] theorem State.passTo_threshold (t : Time) : (s.passTo t).threshold = s.threshold := rfl
@[simp] theorem State.passTo_recovery (t : Time) : (s.passTo t).recovery = s.recovery := rfl
@[simp] theorem State.passTo_filterTime (t : Time) : (s.passTo t).filterTime = s.filterTime := rfl
@[simp] theorem State.passTo_servedCT (t : Time) : (s.passTo t).servedCT = s.servedCT := rfl
@[simp] theorem State.passTo_servedSC (t : Time) : (s.passTo t).servedSC = s.servedSC := rfl
@[simp] theorem State.passTo_servedNS (t : Time) : (s.passTo t).servedNS = s.servedNS := rfl
@[simp] theorem State.passTo_servedSV (t : Time) : (s.passTo t).servedSV = s.servedSV := rfl
@[simp] theorem State.passTo_lineReports (t : Time) : (s.passTo t).lineReports = s.lineReports := rfl
@[simp] theorem State.passTo_ackEvents (t : Time) : (s.passTo t).ackEvents = s.ackEvents := rfl
@[simp] theorem State.passTo_liveReports (t : Time) : (s.passTo t).liveReports = s.liveReports := rfl
@[simp] theorem State.passTo_drainReports (t : Time) : (s.passTo t).drainReports = s.drainReports := rfl
@[simp] theorem State.passTo_pending (t : Time) : (s.passTo t).pending = s.pending := rfl

/-! ### freeSlots -/

@[simp] theorem State.freeSlots_now (p : Port) : (s.freeSlots p).now = s.now := rfl
@[simp] theorem State.freeSlots_claims (p : Port) : (s.freeSlots p).claims = s.claims := rfl
@[simp] theorem State.freeSlots_resources (p : Port) : (s.freeSlots p).resources = s.resources := rfl
@[simp] theorem State.freeSlots_confirmInputs (p : Port) : (s.freeSlots p).confirmInputs = s.confirmInputs := rfl
@[simp] theorem State.freeSlots_severInputs (p : Port) : (s.freeSlots p).severInputs = s.severInputs := rfl
@[simp] theorem State.freeSlots_sessions (p : Port) : (s.freeSlots p).sessions = s.sessions := rfl
@[simp] theorem State.freeSlots_queues (p : Port) : (s.freeSlots p).queues = s.queues := rfl
@[simp] theorem State.freeSlots_ports (p : Port) : (s.freeSlots p).ports = s.ports := rfl
@[simp] theorem State.freeSlots_mode (p : Port) : (s.freeSlots p).mode = s.mode := rfl
@[simp] theorem State.freeSlots_supervisor (p : Port) : (s.freeSlots p).supervisor = s.supervisor := rfl
@[simp] theorem State.freeSlots_threshold (p : Port) : (s.freeSlots p).threshold = s.threshold := rfl
@[simp] theorem State.freeSlots_recovery (p : Port) : (s.freeSlots p).recovery = s.recovery := rfl
@[simp] theorem State.freeSlots_filterTime (p : Port) : (s.freeSlots p).filterTime = s.filterTime := rfl
@[simp] theorem State.freeSlots_servedCT (p : Port) : (s.freeSlots p).servedCT = s.servedCT := rfl
@[simp] theorem State.freeSlots_servedSC (p : Port) : (s.freeSlots p).servedSC = s.servedSC := rfl
@[simp] theorem State.freeSlots_servedNS (p : Port) : (s.freeSlots p).servedNS = s.servedNS := rfl
@[simp] theorem State.freeSlots_servedSV (p : Port) : (s.freeSlots p).servedSV = s.servedSV := rfl
@[simp] theorem State.freeSlots_lineReports (p : Port) : (s.freeSlots p).lineReports = s.lineReports := rfl
@[simp] theorem State.freeSlots_ackEvents (p : Port) : (s.freeSlots p).ackEvents = s.ackEvents := rfl
@[simp] theorem State.freeSlots_liveReports (p : Port) : (s.freeSlots p).liveReports = s.liveReports := rfl
@[simp] theorem State.freeSlots_drainReports (p : Port) : (s.freeSlots p).drainReports = s.drainReports := rfl
@[simp] theorem State.freeSlots_pending (p : Port) : (s.freeSlots p).pending = s.pending := rfl

/-! ### Reading after an update -/

@[simp] theorem State.session_setSession (p q : Port) (v : Session) :
    (s.setSession p v).session q = if p = q then v else s.session q := by
  simp [State.session, State.setSession, Vector.getElem_set, Fin.ext_iff]

@[simp] theorem State.queue_setQueue (p q : Port) (v : NoticeQueue) :
    (s.setQueue p v).queue q = if p = q then v else s.queue q := by
  simp [State.queue, State.setQueue, Vector.getElem_set, Fin.ext_iff]

@[simp] theorem State.port_setPort (p q : Port) (v : PortInterface) :
    (s.setPort p v).port q = if p = q then v else s.port q := by
  simp [State.port, State.setPort, Vector.getElem_set, Fin.ext_iff]

@[simp] theorem State.resource_setResource (x y : ResNo) (v : Option Resource) :
    (s.setResource x v).resource y = if x = y then v else s.resource y := by
  simp [State.resource, State.setResource, Vector.getElem_set, Fin.ext_iff]

@[simp] theorem State.slot_setSlot (p q : Port) (h k : Handle) (v : Slot) :
    (s.setSlot p h v).slot q k = if p = q ∧ h = k then v else s.slot q k := by
  by_cases hp : p = q
  · subst hp
    by_cases hk : h = k
    · subst hk; simp [State.slot, State.setSlot]
    · have : (h : Nat) ≠ (k : Nat) := fun e => hk (Fin.ext e)
      simp [State.slot, State.setSlot, hk, this]
  · have : (p : Nat) ≠ (q : Nat) := fun e => hp (Fin.ext e)
    simp [State.slot, State.setSlot, hp, this]

@[simp] theorem State.slot_freeSlots (p q : Port) (k : Handle) :
    (s.freeSlots p).slot q k = if p = q then .free else s.slot q k := by
  by_cases hp : p = q
  · subst hp; simp [State.slot, State.freeSlots]
  · have : (p : Nat) ≠ (q : Nat) := fun e => hp (Fin.ext e)
    simp [State.slot, State.freeSlots, hp, this]

@[simp] theorem State.confirm_setConfirm (c d : ConfNo) (v : InputFilter) :
    (s.setConfirm c v).confirmInputs[d] = if c = d then v else s.confirmInputs[d] := by
  simp [State.setConfirm, Vector.getElem_set, Fin.ext_iff]

@[simp] theorem State.sever_setSever (p q : Port) (v : InputFilter) :
    (s.setSever p v).severInputs[q] = if p = q then v else s.severInputs[q] := by
  simp [State.setSever, Vector.getElem_set, Fin.ext_iff]

@[simp] theorem State.claims_setClaims (v : List Claim) : (s.setClaims v).claims = v := rfl

@[simp] theorem State.lineReports_setLineReports (v : List LineReport) : (s.setLineReports v).lineReports = v := rfl

@[simp] theorem State.now_passTo (t : Time) : (s.passTo t).now = max s.now t := rfl

/-! ### Views that an update does not touch -/

@[simp] theorem State.queue_setSession (p : Port) (v : Session) (q : Port) : (s.setSession p v).queue q = s.queue q := rfl
@[simp] theorem State.port_setSession (p : Port) (v : Session) (q : Port) : (s.setSession p v).port q = s.port q := rfl
@[simp] theorem State.slot_setSession (p : Port) (v : Session) (q : Port) (k : Handle) : (s.setSession p v).slot q k = s.slot q k := rfl
@[simp] theorem State.resource_setSession (p : Port) (v : Session) (y : ResNo) : (s.setSession p v).resource y = s.resource y := rfl
@[simp] theorem State.kindOf_setSession (p : Port) (v : Session) (y : ResNo) : (s.setSession p v).kindOf y = s.kindOf y := rfl
@[simp] theorem State.graceOf_setSession (p : Port) (v : Session) (y : ResNo) : (s.setSession p v).graceOf y = s.graceOf y := rfl
@[simp] theorem State.lineDef_setSession (p : Port) (v : Session) (y : ResNo) : (s.setSession p v).lineDef y = s.lineDef y := rfl
@[simp] theorem State.waitQueue_setSession (p : Port) (v : Session) (y : ResNo) : (s.setSession p v).waitQueue y = s.waitQueue y := rfl
@[simp] theorem State.assigned_setSession (p : Port) (v : Session) (y : ResNo) : (s.setSession p v).assigned y = s.assigned y := rfl
@[simp] theorem State.headClaim_setSession (p : Port) (v : Session) (y : ResNo) : (s.setSession p v).headClaim y = s.headClaim y := rfl
@[simp] theorem State.claimOn_setSession (p : Port) (v : Session) (q : Port) (y : ResNo) : (s.setSession p v).claimOn q y = s.claimOn q y := rfl
@[simp] theorem State.freeCount_setSession (p : Port) (v : Session) : (s.setSession p v).freeCount = s.freeCount := rfl
@[simp] theorem State.holdingsOf_setSession (p : Port) (v : Session) (q : Port) : (s.setSession p v).holdingsOf q = s.holdingsOf q := rfl
@[simp] theorem State.session_setQueue (p : Port) (v : NoticeQueue) (q : Port) : (s.setQueue p v).session q = s.session q := rfl
@[simp] theorem State.port_setQueue (p : Port) (v : NoticeQueue) (q : Port) : (s.setQueue p v).port q = s.port q := rfl
@[simp] theorem State.slot_setQueue (p : Port) (v : NoticeQueue) (q : Port) (k : Handle) : (s.setQueue p v).slot q k = s.slot q k := rfl
@[simp] theorem State.resource_setQueue (p : Port) (v : NoticeQueue) (y : ResNo) : (s.setQueue p v).resource y = s.resource y := rfl
@[simp] theorem State.isOpen_setQueue (p : Port) (v : NoticeQueue) (q : Port) : (s.setQueue p v).isOpen q = s.isOpen q := rfl
@[simp] theorem State.isLive_setQueue (p : Port) (v : NoticeQueue) (q : Port) : (s.setQueue p v).isLive q = s.isLive q := rfl
@[simp] theorem State.incarnation_setQueue (p : Port) (v : NoticeQueue) (q : Port) : (s.setQueue p v).incarnation q = s.incarnation q := rfl
@[simp] theorem State.kindOf_setQueue (p : Port) (v : NoticeQueue) (y : ResNo) : (s.setQueue p v).kindOf y = s.kindOf y := rfl
@[simp] theorem State.graceOf_setQueue (p : Port) (v : NoticeQueue) (y : ResNo) : (s.setQueue p v).graceOf y = s.graceOf y := rfl
@[simp] theorem State.lineDef_setQueue (p : Port) (v : NoticeQueue) (y : ResNo) : (s.setQueue p v).lineDef y = s.lineDef y := rfl
@[simp] theorem State.waitQueue_setQueue (p : Port) (v : NoticeQueue) (y : ResNo) : (s.setQueue p v).waitQueue y = s.waitQueue y := rfl
@[simp] theorem State.assigned_setQueue (p : Port) (v : NoticeQueue) (y : ResNo) : (s.setQueue p v).assigned y = s.assigned y := rfl
@[simp] theorem State.headClaim_setQueue (p : Port) (v : NoticeQueue) (y : ResNo) : (s.setQueue p v).headClaim y = s.headClaim y := rfl
@[simp] theorem State.claimOn_setQueue (p : Port) (v : NoticeQueue) (q : Port) (y : ResNo) : (s.setQueue p v).claimOn q y = s.claimOn q y := rfl
@[simp] theorem State.freeCount_setQueue (p : Port) (v : NoticeQueue) : (s.setQueue p v).freeCount = s.freeCount := rfl
@[simp] theorem State.holdingsOf_setQueue (p : Port) (v : NoticeQueue) (q : Port) : (s.setQueue p v).holdingsOf q = s.holdingsOf q := rfl
@[simp] theorem State.session_setPort (p : Port) (v : PortInterface) (q : Port) : (s.setPort p v).session q = s.session q := rfl
@[simp] theorem State.queue_setPort (p : Port) (v : PortInterface) (q : Port) : (s.setPort p v).queue q = s.queue q := rfl
@[simp] theorem State.slot_setPort (p : Port) (v : PortInterface) (q : Port) (k : Handle) : (s.setPort p v).slot q k = s.slot q k := rfl
@[simp] theorem State.resource_setPort (p : Port) (v : PortInterface) (y : ResNo) : (s.setPort p v).resource y = s.resource y := rfl
@[simp] theorem State.isOpen_setPort (p : Port) (v : PortInterface) (q : Port) : (s.setPort p v).isOpen q = s.isOpen q := rfl
@[simp] theorem State.isLive_setPort (p : Port) (v : PortInterface) (q : Port) : (s.setPort p v).isLive q = s.isLive q := rfl
@[simp] theorem State.incarnation_setPort (p : Port) (v : PortInterface) (q : Port) : (s.setPort p v).incarnation q = s.incarnation q := rfl
@[simp] theorem State.kindOf_setPort (p : Port) (v : PortInterface) (y : ResNo) : (s.setPort p v).kindOf y = s.kindOf y := rfl
@[simp] theorem State.graceOf_setPort (p : Port) (v : PortInterface) (y : ResNo) : (s.setPort p v).graceOf y = s.graceOf y := rfl
@[simp] theorem State.lineDef_setPort (p : Port) (v : PortInterface) (y : ResNo) : (s.setPort p v).lineDef y = s.lineDef y := rfl
@[simp] theorem State.waitQueue_setPort (p : Port) (v : PortInterface) (y : ResNo) : (s.setPort p v).waitQueue y = s.waitQueue y := rfl
@[simp] theorem State.assigned_setPort (p : Port) (v : PortInterface) (y : ResNo) : (s.setPort p v).assigned y = s.assigned y := rfl
@[simp] theorem State.headClaim_setPort (p : Port) (v : PortInterface) (y : ResNo) : (s.setPort p v).headClaim y = s.headClaim y := rfl
@[simp] theorem State.claimOn_setPort (p : Port) (v : PortInterface) (q : Port) (y : ResNo) : (s.setPort p v).claimOn q y = s.claimOn q y := rfl
@[simp] theorem State.freeCount_setPort (p : Port) (v : PortInterface) : (s.setPort p v).freeCount = s.freeCount := rfl
@[simp] theorem State.holdingsOf_setPort (p : Port) (v : PortInterface) (q : Port) : (s.setPort p v).holdingsOf q = s.holdingsOf q := rfl
@[simp] theorem State.session_setSlot (p : Port) (h : Handle) (v : Slot) (q : Port) : (s.setSlot p h v).session q = s.session q := rfl
@[simp] theorem State.queue_setSlot (p : Port) (h : Handle) (v : Slot) (q : Port) : (s.setSlot p h v).queue q = s.queue q := rfl
@[simp] theorem State.port_setSlot (p : Port) (h : Handle) (v : Slot) (q : Port) : (s.setSlot p h v).port q = s.port q := rfl
@[simp] theorem State.resource_setSlot (p : Port) (h : Handle) (v : Slot) (y : ResNo) : (s.setSlot p h v).resource y = s.resource y := rfl
@[simp] theorem State.isOpen_setSlot (p : Port) (h : Handle) (v : Slot) (q : Port) : (s.setSlot p h v).isOpen q = s.isOpen q := rfl
@[simp] theorem State.isLive_setSlot (p : Port) (h : Handle) (v : Slot) (q : Port) : (s.setSlot p h v).isLive q = s.isLive q := rfl
@[simp] theorem State.incarnation_setSlot (p : Port) (h : Handle) (v : Slot) (q : Port) : (s.setSlot p h v).incarnation q = s.incarnation q := rfl
@[simp] theorem State.kindOf_setSlot (p : Port) (h : Handle) (v : Slot) (y : ResNo) : (s.setSlot p h v).kindOf y = s.kindOf y := rfl
@[simp] theorem State.graceOf_setSlot (p : Port) (h : Handle) (v : Slot) (y : ResNo) : (s.setSlot p h v).graceOf y = s.graceOf y := rfl
@[simp] theorem State.lineDef_setSlot (p : Port) (h : Handle) (v : Slot) (y : ResNo) : (s.setSlot p h v).lineDef y = s.lineDef y := rfl
@[simp] theorem State.waitQueue_setSlot (p : Port) (h : Handle) (v : Slot) (y : ResNo) : (s.setSlot p h v).waitQueue y = s.waitQueue y := rfl
@[simp] theorem State.assigned_setSlot (p : Port) (h : Handle) (v : Slot) (y : ResNo) : (s.setSlot p h v).assigned y = s.assigned y := rfl
@[simp] theorem State.headClaim_setSlot (p : Port) (h : Handle) (v : Slot) (y : ResNo) : (s.setSlot p h v).headClaim y = s.headClaim y := rfl
@[simp] theorem State.claimOn_setSlot (p : Port) (h : Handle) (v : Slot) (q : Port) (y : ResNo) : (s.setSlot p h v).claimOn q y = s.claimOn q y := rfl
@[simp] theorem State.freeCount_setSlot (p : Port) (h : Handle) (v : Slot) : (s.setSlot p h v).freeCount = s.freeCount := rfl
@[simp] theorem State.holdingsOf_setSlot (p : Port) (h : Handle) (v : Slot) (q : Port) : (s.setSlot p h v).holdingsOf q = s.holdingsOf q := rfl
@[simp] theorem State.session_setResource (x : ResNo) (v : Option Resource) (q : Port) : (s.setResource x v).session q = s.session q := rfl
@[simp] theorem State.queue_setResource (x : ResNo) (v : Option Resource) (q : Port) : (s.setResource x v).queue q = s.queue q := rfl
@[simp] theorem State.port_setResource (x : ResNo) (v : Option Resource) (q : Port) : (s.setResource x v).port q = s.port q := rfl
@[simp] theorem State.slot_setResource (x : ResNo) (v : Option Resource) (q : Port) (k : Handle) : (s.setResource x v).slot q k = s.slot q k := rfl
@[simp] theorem State.isOpen_setResource (x : ResNo) (v : Option Resource) (q : Port) : (s.setResource x v).isOpen q = s.isOpen q := rfl
@[simp] theorem State.isLive_setResource (x : ResNo) (v : Option Resource) (q : Port) : (s.setResource x v).isLive q = s.isLive q := rfl
@[simp] theorem State.incarnation_setResource (x : ResNo) (v : Option Resource) (q : Port) : (s.setResource x v).incarnation q = s.incarnation q := rfl
@[simp] theorem State.waitQueue_setResource (x : ResNo) (v : Option Resource) (y : ResNo) : (s.setResource x v).waitQueue y = s.waitQueue y := rfl
@[simp] theorem State.assigned_setResource (x : ResNo) (v : Option Resource) (y : ResNo) : (s.setResource x v).assigned y = s.assigned y := rfl
@[simp] theorem State.headClaim_setResource (x : ResNo) (v : Option Resource) (y : ResNo) : (s.setResource x v).headClaim y = s.headClaim y := rfl
@[simp] theorem State.claimOn_setResource (x : ResNo) (v : Option Resource) (q : Port) (y : ResNo) : (s.setResource x v).claimOn q y = s.claimOn q y := rfl
@[simp] theorem State.freeCount_setResource (x : ResNo) (v : Option Resource) : (s.setResource x v).freeCount = s.freeCount := rfl
@[simp] theorem State.holdingsOf_setResource (x : ResNo) (v : Option Resource) (q : Port) : (s.setResource x v).holdingsOf q = s.holdingsOf q := rfl
@[simp] theorem State.session_setConfirm (c : ConfNo) (v : InputFilter) (q : Port) : (s.setConfirm c v).session q = s.session q := rfl
@[simp] theorem State.queue_setConfirm (c : ConfNo) (v : InputFilter) (q : Port) : (s.setConfirm c v).queue q = s.queue q := rfl
@[simp] theorem State.port_setConfirm (c : ConfNo) (v : InputFilter) (q : Port) : (s.setConfirm c v).port q = s.port q := rfl
@[simp] theorem State.slot_setConfirm (c : ConfNo) (v : InputFilter) (q : Port) (k : Handle) : (s.setConfirm c v).slot q k = s.slot q k := rfl
@[simp] theorem State.resource_setConfirm (c : ConfNo) (v : InputFilter) (y : ResNo) : (s.setConfirm c v).resource y = s.resource y := rfl
@[simp] theorem State.isOpen_setConfirm (c : ConfNo) (v : InputFilter) (q : Port) : (s.setConfirm c v).isOpen q = s.isOpen q := rfl
@[simp] theorem State.isLive_setConfirm (c : ConfNo) (v : InputFilter) (q : Port) : (s.setConfirm c v).isLive q = s.isLive q := rfl
@[simp] theorem State.incarnation_setConfirm (c : ConfNo) (v : InputFilter) (q : Port) : (s.setConfirm c v).incarnation q = s.incarnation q := rfl
@[simp] theorem State.kindOf_setConfirm (c : ConfNo) (v : InputFilter) (y : ResNo) : (s.setConfirm c v).kindOf y = s.kindOf y := rfl
@[simp] theorem State.graceOf_setConfirm (c : ConfNo) (v : InputFilter) (y : ResNo) : (s.setConfirm c v).graceOf y = s.graceOf y := rfl
@[simp] theorem State.lineDef_setConfirm (c : ConfNo) (v : InputFilter) (y : ResNo) : (s.setConfirm c v).lineDef y = s.lineDef y := rfl
@[simp] theorem State.waitQueue_setConfirm (c : ConfNo) (v : InputFilter) (y : ResNo) : (s.setConfirm c v).waitQueue y = s.waitQueue y := rfl
@[simp] theorem State.assigned_setConfirm (c : ConfNo) (v : InputFilter) (y : ResNo) : (s.setConfirm c v).assigned y = s.assigned y := rfl
@[simp] theorem State.headClaim_setConfirm (c : ConfNo) (v : InputFilter) (y : ResNo) : (s.setConfirm c v).headClaim y = s.headClaim y := rfl
@[simp] theorem State.claimOn_setConfirm (c : ConfNo) (v : InputFilter) (q : Port) (y : ResNo) : (s.setConfirm c v).claimOn q y = s.claimOn q y := rfl
@[simp] theorem State.freeCount_setConfirm (c : ConfNo) (v : InputFilter) : (s.setConfirm c v).freeCount = s.freeCount := rfl
@[simp] theorem State.holdingsOf_setConfirm (c : ConfNo) (v : InputFilter) (q : Port) : (s.setConfirm c v).holdingsOf q = s.holdingsOf q := rfl
@[simp] theorem State.session_setSever (p : Port) (v : InputFilter) (q : Port) : (s.setSever p v).session q = s.session q := rfl
@[simp] theorem State.queue_setSever (p : Port) (v : InputFilter) (q : Port) : (s.setSever p v).queue q = s.queue q := rfl
@[simp] theorem State.port_setSever (p : Port) (v : InputFilter) (q : Port) : (s.setSever p v).port q = s.port q := rfl
@[simp] theorem State.slot_setSever (p : Port) (v : InputFilter) (q : Port) (k : Handle) : (s.setSever p v).slot q k = s.slot q k := rfl
@[simp] theorem State.resource_setSever (p : Port) (v : InputFilter) (y : ResNo) : (s.setSever p v).resource y = s.resource y := rfl
@[simp] theorem State.isOpen_setSever (p : Port) (v : InputFilter) (q : Port) : (s.setSever p v).isOpen q = s.isOpen q := rfl
@[simp] theorem State.isLive_setSever (p : Port) (v : InputFilter) (q : Port) : (s.setSever p v).isLive q = s.isLive q := rfl
@[simp] theorem State.incarnation_setSever (p : Port) (v : InputFilter) (q : Port) : (s.setSever p v).incarnation q = s.incarnation q := rfl
@[simp] theorem State.kindOf_setSever (p : Port) (v : InputFilter) (y : ResNo) : (s.setSever p v).kindOf y = s.kindOf y := rfl
@[simp] theorem State.graceOf_setSever (p : Port) (v : InputFilter) (y : ResNo) : (s.setSever p v).graceOf y = s.graceOf y := rfl
@[simp] theorem State.lineDef_setSever (p : Port) (v : InputFilter) (y : ResNo) : (s.setSever p v).lineDef y = s.lineDef y := rfl
@[simp] theorem State.waitQueue_setSever (p : Port) (v : InputFilter) (y : ResNo) : (s.setSever p v).waitQueue y = s.waitQueue y := rfl
@[simp] theorem State.assigned_setSever (p : Port) (v : InputFilter) (y : ResNo) : (s.setSever p v).assigned y = s.assigned y := rfl
@[simp] theorem State.headClaim_setSever (p : Port) (v : InputFilter) (y : ResNo) : (s.setSever p v).headClaim y = s.headClaim y := rfl
@[simp] theorem State.claimOn_setSever (p : Port) (v : InputFilter) (q : Port) (y : ResNo) : (s.setSever p v).claimOn q y = s.claimOn q y := rfl
@[simp] theorem State.freeCount_setSever (p : Port) (v : InputFilter) : (s.setSever p v).freeCount = s.freeCount := rfl
@[simp] theorem State.holdingsOf_setSever (p : Port) (v : InputFilter) (q : Port) : (s.setSever p v).holdingsOf q = s.holdingsOf q := rfl
@[simp] theorem State.session_setClaims (v : List Claim) (q : Port) : (s.setClaims v).session q = s.session q := rfl
@[simp] theorem State.queue_setClaims (v : List Claim) (q : Port) : (s.setClaims v).queue q = s.queue q := rfl
@[simp] theorem State.port_setClaims (v : List Claim) (q : Port) : (s.setClaims v).port q = s.port q := rfl
@[simp] theorem State.slot_setClaims (v : List Claim) (q : Port) (k : Handle) : (s.setClaims v).slot q k = s.slot q k := rfl
@[simp] theorem State.resource_setClaims (v : List Claim) (y : ResNo) : (s.setClaims v).resource y = s.resource y := rfl
@[simp] theorem State.isOpen_setClaims (v : List Claim) (q : Port) : (s.setClaims v).isOpen q = s.isOpen q := rfl
@[simp] theorem State.isLive_setClaims (v : List Claim) (q : Port) : (s.setClaims v).isLive q = s.isLive q := rfl
@[simp] theorem State.incarnation_setClaims (v : List Claim) (q : Port) : (s.setClaims v).incarnation q = s.incarnation q := rfl
@[simp] theorem State.kindOf_setClaims (v : List Claim) (y : ResNo) : (s.setClaims v).kindOf y = s.kindOf y := rfl
@[simp] theorem State.graceOf_setClaims (v : List Claim) (y : ResNo) : (s.setClaims v).graceOf y = s.graceOf y := rfl
@[simp] theorem State.lineDef_setClaims (v : List Claim) (y : ResNo) : (s.setClaims v).lineDef y = s.lineDef y := rfl
@[simp] theorem State.session_setLineReports (v : List LineReport) (q : Port) : (s.setLineReports v).session q = s.session q := rfl
@[simp] theorem State.queue_setLineReports (v : List LineReport) (q : Port) : (s.setLineReports v).queue q = s.queue q := rfl
@[simp] theorem State.port_setLineReports (v : List LineReport) (q : Port) : (s.setLineReports v).port q = s.port q := rfl
@[simp] theorem State.slot_setLineReports (v : List LineReport) (q : Port) (k : Handle) : (s.setLineReports v).slot q k = s.slot q k := rfl
@[simp] theorem State.resource_setLineReports (v : List LineReport) (y : ResNo) : (s.setLineReports v).resource y = s.resource y := rfl
@[simp] theorem State.isOpen_setLineReports (v : List LineReport) (q : Port) : (s.setLineReports v).isOpen q = s.isOpen q := rfl
@[simp] theorem State.isLive_setLineReports (v : List LineReport) (q : Port) : (s.setLineReports v).isLive q = s.isLive q := rfl
@[simp] theorem State.incarnation_setLineReports (v : List LineReport) (q : Port) : (s.setLineReports v).incarnation q = s.incarnation q := rfl
@[simp] theorem State.kindOf_setLineReports (v : List LineReport) (y : ResNo) : (s.setLineReports v).kindOf y = s.kindOf y := rfl
@[simp] theorem State.graceOf_setLineReports (v : List LineReport) (y : ResNo) : (s.setLineReports v).graceOf y = s.graceOf y := rfl
@[simp] theorem State.lineDef_setLineReports (v : List LineReport) (y : ResNo) : (s.setLineReports v).lineDef y = s.lineDef y := rfl
@[simp] theorem State.waitQueue_setLineReports (v : List LineReport) (y : ResNo) : (s.setLineReports v).waitQueue y = s.waitQueue y := rfl
@[simp] theorem State.assigned_setLineReports (v : List LineReport) (y : ResNo) : (s.setLineReports v).assigned y = s.assigned y := rfl
@[simp] theorem State.headClaim_setLineReports (v : List LineReport) (y : ResNo) : (s.setLineReports v).headClaim y = s.headClaim y := rfl
@[simp] theorem State.claimOn_setLineReports (v : List LineReport) (q : Port) (y : ResNo) : (s.setLineReports v).claimOn q y = s.claimOn q y := rfl
@[simp] theorem State.freeCount_setLineReports (v : List LineReport) : (s.setLineReports v).freeCount = s.freeCount := rfl
@[simp] theorem State.holdingsOf_setLineReports (v : List LineReport) (q : Port) : (s.setLineReports v).holdingsOf q = s.holdingsOf q := rfl
@[simp] theorem State.session_passTo (t : Time) (q : Port) : (s.passTo t).session q = s.session q := rfl
@[simp] theorem State.queue_passTo (t : Time) (q : Port) : (s.passTo t).queue q = s.queue q := rfl
@[simp] theorem State.port_passTo (t : Time) (q : Port) : (s.passTo t).port q = s.port q := rfl
@[simp] theorem State.slot_passTo (t : Time) (q : Port) (k : Handle) : (s.passTo t).slot q k = s.slot q k := rfl
@[simp] theorem State.resource_passTo (t : Time) (y : ResNo) : (s.passTo t).resource y = s.resource y := rfl
@[simp] theorem State.isOpen_passTo (t : Time) (q : Port) : (s.passTo t).isOpen q = s.isOpen q := rfl
@[simp] theorem State.isLive_passTo (t : Time) (q : Port) : (s.passTo t).isLive q = s.isLive q := rfl
@[simp] theorem State.incarnation_passTo (t : Time) (q : Port) : (s.passTo t).incarnation q = s.incarnation q := rfl
@[simp] theorem State.kindOf_passTo (t : Time) (y : ResNo) : (s.passTo t).kindOf y = s.kindOf y := rfl
@[simp] theorem State.graceOf_passTo (t : Time) (y : ResNo) : (s.passTo t).graceOf y = s.graceOf y := rfl
@[simp] theorem State.lineDef_passTo (t : Time) (y : ResNo) : (s.passTo t).lineDef y = s.lineDef y := rfl
@[simp] theorem State.waitQueue_passTo (t : Time) (y : ResNo) : (s.passTo t).waitQueue y = s.waitQueue y := rfl
@[simp] theorem State.assigned_passTo (t : Time) (y : ResNo) : (s.passTo t).assigned y = s.assigned y := rfl
@[simp] theorem State.headClaim_passTo (t : Time) (y : ResNo) : (s.passTo t).headClaim y = s.headClaim y := rfl
@[simp] theorem State.claimOn_passTo (t : Time) (q : Port) (y : ResNo) : (s.passTo t).claimOn q y = s.claimOn q y := rfl
@[simp] theorem State.freeCount_passTo (t : Time) : (s.passTo t).freeCount = s.freeCount := rfl
@[simp] theorem State.holdingsOf_passTo (t : Time) (q : Port) : (s.passTo t).holdingsOf q = s.holdingsOf q := rfl
@[simp] theorem State.session_freeSlots (p : Port) (q : Port) : (s.freeSlots p).session q = s.session q := rfl
@[simp] theorem State.queue_freeSlots (p : Port) (q : Port) : (s.freeSlots p).queue q = s.queue q := rfl
@[simp] theorem State.port_freeSlots (p : Port) (q : Port) : (s.freeSlots p).port q = s.port q := rfl
@[simp] theorem State.resource_freeSlots (p : Port) (y : ResNo) : (s.freeSlots p).resource y = s.resource y := rfl
@[simp] theorem State.isOpen_freeSlots (p : Port) (q : Port) : (s.freeSlots p).isOpen q = s.isOpen q := rfl
@[simp] theorem State.isLive_freeSlots (p : Port) (q : Port) : (s.freeSlots p).isLive q = s.isLive q := rfl
@[simp] theorem State.incarnation_freeSlots (p : Port) (q : Port) : (s.freeSlots p).incarnation q = s.incarnation q := rfl
@[simp] theorem State.kindOf_freeSlots (p : Port) (y : ResNo) : (s.freeSlots p).kindOf y = s.kindOf y := rfl
@[simp] theorem State.graceOf_freeSlots (p : Port) (y : ResNo) : (s.freeSlots p).graceOf y = s.graceOf y := rfl
@[simp] theorem State.lineDef_freeSlots (p : Port) (y : ResNo) : (s.freeSlots p).lineDef y = s.lineDef y := rfl
@[simp] theorem State.waitQueue_freeSlots (p : Port) (y : ResNo) : (s.freeSlots p).waitQueue y = s.waitQueue y := rfl
@[simp] theorem State.assigned_freeSlots (p : Port) (y : ResNo) : (s.freeSlots p).assigned y = s.assigned y := rfl
@[simp] theorem State.headClaim_freeSlots (p : Port) (y : ResNo) : (s.freeSlots p).headClaim y = s.headClaim y := rfl
@[simp] theorem State.claimOn_freeSlots (p : Port) (q : Port) (y : ResNo) : (s.freeSlots p).claimOn q y = s.claimOn q y := rfl
@[simp] theorem State.freeCount_freeSlots (p : Port) : (s.freeSlots p).freeCount = s.freeCount := rfl
@[simp] theorem State.holdingsOf_freeSlots (p : Port) (q : Port) : (s.freeSlots p).holdingsOf q = s.holdingsOf q := rfl

end Sys2Proof.Machine
end

