-- ==== Sys2Proof/Laws/LineUnit.lean ====
section
/-! SUPPORT. The Line Unit's orders and the passages of a resource: what each leaves alone, said once
(`State.LineOrder`), and what each makes of the resource's own record. -/

namespace Sys2Proof.Machine

/-! ## The same outside the Claim Table -/

theorem State.SameOutsideClaimTable.refl (s : State) : s.SameOutsideClaimTable s := by constructor <;> rfl

theorem State.SameOutsideClaimTable.trans {s t u : State} (a : s.SameOutsideClaimTable t)
    (b : t.SameOutsideClaimTable u) : s.SameOutsideClaimTable u := by
  constructor
  · exact b.sessions.trans a.sessions
  · exact b.ports.trans a.ports
  · exact b.confirmInputs.trans a.confirmInputs
  · exact b.severInputs.trans a.severInputs
  · exact b.now.trans a.now
  · exact b.pending.trans a.pending
  · exact b.mode.trans a.mode
  · exact b.supervisor.trans a.supervisor
  · exact b.threshold.trans a.threshold
  · exact b.recovery.trans a.recovery
  · exact b.filterTime.trans a.filterTime
  · exact b.servedCT.trans a.servedCT
  · exact b.servedSC.trans a.servedSC
  · exact b.servedNS.trans a.servedNS
  · exact b.servedSV.trans a.servedSV
  · exact b.ackEvents.trans a.ackEvents
  · exact b.liveReports.trans a.liveReports

theorem State.SameOutsideClaimTable.isOpen {s t : State} (h : s.SameOutsideClaimTable t) (p : Port) :
    t.isOpen p = s.isOpen p := by
  simp [State.isOpen, State.session, h.sessions]

theorem State.SameOutsideClaimTable.isLive {s t : State} (h : s.SameOutsideClaimTable t) (p : Port) :
    t.isLive p = s.isLive p := by
  simp [State.isLive, State.session, h.sessions]

theorem State.SameOutsideClaimTable.session {s t : State} (h : s.SameOutsideClaimTable t) (p : Port) :
    t.session p = s.session p := by
  simp [State.session, h.sessions]

theorem State.SameOutsideClaimTable.incarnation {s t : State} (h : s.SameOutsideClaimTable t) (p : Port) :
    t.incarnation p = s.incarnation p := by
  simp [State.incarnation, h.session]

theorem State.SameOutsideClaimTable.port {s t : State} (h : s.SameOutsideClaimTable t) (p : Port) :
    t.port p = s.port p := by
  simp [State.port, h.ports]

/-! ## Orders -/

/-- What an order for resource `x`, and a passage of its state, may change: the record of `x` but for its
definition, and the reports; nothing else (R75, R76). -/
structure State.LineOrder (x : ResNo) (s t : State) : Prop where
  outside : s.SameOutsideClaimTable t
  claims : t.claims = s.claims
  slots : t.slots = s.slots
  queues : t.queues = s.queues
  drainReports : t.drainReports = s.drainReports
  others : ∀ y, y ≠ x → t.resource y = s.resource y
  grantNumber : (t.resource x).map Resource.grantNumber = (s.resource x).map Resource.grantNumber
  holdLimit : (t.resource x).map Resource.holdLimit = (s.resource x).map Resource.holdLimit
  yieldGrace : (t.resource x).map Resource.yieldGrace = (s.resource x).map Resource.yieldGrace
  label : (t.resource x).map Resource.label = (s.resource x).map Resource.label
  lineDef : t.lineDef x = s.lineDef x

theorem State.LineOrder.refl (x : ResNo) (s : State) : State.LineOrder x s s := by
  constructor <;> first | rfl | exact State.SameOutsideClaimTable.refl s | (intros; rfl)

theorem State.LineOrder.trans {x : ResNo} {s t u : State} (a : State.LineOrder x s t) (b : State.LineOrder x t u) :
    State.LineOrder x s u := by
  constructor
  · exact a.outside.trans b.outside
  · exact b.claims.trans a.claims
  · exact b.slots.trans a.slots
  · exact b.queues.trans a.queues
  · exact b.drainReports.trans a.drainReports
  · exact fun y hy => (b.others y hy).trans (a.others y hy)
  · exact b.grantNumber.trans a.grantNumber
  · exact b.holdLimit.trans a.holdLimit
  · exact b.yieldGrace.trans a.yieldGrace
  · exact b.label.trans a.label
  · exact b.lineDef.trans a.lineDef

variable (s : State) (x : ResNo)

@[simp] theorem State.resource_mapResource (f : Resource → Resource) (y : ResNo) :
    (s.mapResource x f).resource y = if x = y then (s.resource x).map f else s.resource y := by
  simp [State.mapResource]

/-- A change of a record that keeps every field but the kind, and of the kind keeps the definition. -/
theorem State.LineOrder.ofMap (f : Resource → Resource)
    (hf : ∀ r, (f r).grantNumber = r.grantNumber ∧ (f r).holdLimit = r.holdLimit ∧ (f r).yieldGrace = r.yieldGrace
      ∧ (f r).label = r.label ∧ (f r).kind.lineDef = r.kind.lineDef) :
    State.LineOrder x s (s.mapResource x f) := by
  constructor
  · constructor <;> rfl
  · rfl
  · rfl
  · rfl
  · rfl
  · intro y hy; simp [Ne.symm hy]
  all_goals cases h : s.resource x <;> simp [h, hf, State.lineDef]

theorem State.LineOrder.ofReports (v : List LineReport) : State.LineOrder x s (s.setLineReports v) := by
  constructor <;> first | rfl | (constructor <;> rfl) | (intros; rfl)

theorem State.report_lineOrder (k : LineReportKind) : State.LineOrder x s (s.report x k) := State.LineOrder.ofReports s x _

theorem State.staleReports_lineOrder : State.LineOrder x s (s.staleReports x) := State.LineOrder.ofReports s x _

theorem State.mapPhase_lineOrder (f : LineDef → PhaseRecord → PhaseRecord) : State.LineOrder x s (s.mapPhase x f) := by
  apply State.LineOrder.ofMap
  intro r; cases h : r.kind <;> simp [h, Kind.lineDef]

theorem State.order_lineOrder (f : LineDef → PhaseRecord → PhaseRecord) : State.LineOrder x s (s.order x f) :=
  (State.mapPhase_lineOrder s x f).trans (State.staleReports_lineOrder _ x)

theorem State.driveIdle_lineOrder : State.LineOrder x s (s.driveIdle x) := State.order_lineOrder s x _

theorem State.startGuard_lineOrder : State.LineOrder x s (s.startGuard x) := State.order_lineOrder s x _

theorem State.startVerify_lineOrder : State.LineOrder x s (s.startVerify x) := State.order_lineOrder s x _

theorem State.drivePattern_lineOrder (k : Port) : State.LineOrder x s (s.drivePattern x k) := State.order_lineOrder s x _

theorem State.startEngage_lineOrder : State.LineOrder x s (s.startEngage x) := by
  unfold State.startEngage
  split
  · exact State.LineOrder.refl x s
  · exact (State.order_lineOrder s x _).trans (State.report_lineOrder _ x _)
  · split
    · exact (State.order_lineOrder s x _).trans (State.report_lineOrder _ x _)
    · exact State.order_lineOrder s x _

theorem State.setLineState_lineOrder (st : LineState) : State.LineOrder x s (s.setLineState x st) := by
  apply State.LineOrder.ofMap
  intro r; cases h : r.kind <;> simp [h, Kind.lineDef]

theorem State.cool_lineOrder : State.LineOrder x s (s.cool x) :=
  ((State.driveIdle_lineOrder s x).trans (State.startGuard_lineOrder _ x)).trans (State.setLineState_lineOrder _ x _)

theorem State.engageOrVerify_lineOrder (k : Port) : State.LineOrder x s (s.engageOrVerify x k) := by
  unfold State.engageOrVerify
  split
  · exact (State.startVerify_lineOrder s x).trans (State.setLineState_lineOrder _ x _)
  · exact ((State.drivePattern_lineOrder s x k).trans (State.startEngage_lineOrder _ x)).trans
      (State.setLineState_lineOrder _ x _)

/-- A TOKEN resource's state is replaced. -/
theorem State.setToken_lineOrder (sh : Bool) (st st' : TokenState) (h : s.kindOf x = some (.token sh st)) :
    State.LineOrder x s (s.setKind x (.token sh st')) := by
  constructor
  · constructor <;> rfl
  · rfl
  · rfl
  · rfl
  · rfl
  · intro y hy; simp [State.setKind, Ne.symm hy]
  all_goals
    simp only [State.kindOf] at h
    cases hr : s.resource x <;> simp_all [State.setKind, State.lineDef, Kind.lineDef]

theorem State.faultResource_lineOrder (reason : FaultReason) : State.LineOrder x s (s.faultResource x reason) := by
  unfold State.faultResource
  split
  · exact (State.driveIdle_lineOrder s x).trans (State.setLineState_lineOrder _ x _)
  · next h => exact State.setToken_lineOrder s x _ _ _ h
  · exact State.LineOrder.refl x s

theorem State.settle_lineOrder : State.LineOrder x s (s.settle x) := by
  unfold State.settle
  split
  · exact State.LineOrder.refl x s
  · next h => exact State.setToken_lineOrder s x _ _ _ h
  · exact State.setLineState_lineOrder s x _
  · exact (State.driveIdle_lineOrder s x).trans (State.setLineState_lineOrder _ x _)
  · exact State.cool_lineOrder s x
  · exact State.cool_lineOrder s x
  · exact State.LineOrder.refl x s

theorem State.beginItem_lineOrder (p : Port) : State.LineOrder x s (s.beginItem p x) := by
  unfold State.beginItem
  split
  · next h => exact State.setToken_lineOrder s x _ _ _ h
  · exact State.setLineState_lineOrder s x _
  · exact State.engageOrVerify_lineOrder s x p
  · exact State.LineOrder.refl x s

/-! ## What an order makes of a LINE resource -/

/-- The kind part of a LINE resource after a change of its phase record. -/
theorem State.kindOf_order (f : LineDef → PhaseRecord → PhaseRecord) (d : LineDef) (st : LineState) (lu : PhaseRecord)
    (h : s.kindOf x = some (.line d st lu)) : (s.order x f).kindOf x = some (.line d st (f d lu)) := by
  simp only [State.kindOf] at h
  cases hr : s.resource x <;> simp_all [State.order, State.mapPhase, State.staleReports, State.kindOf]

theorem State.kindOf_setLineState (st' : LineState) (d : LineDef) (st : LineState) (lu : PhaseRecord)
    (h : s.kindOf x = some (.line d st lu)) : (s.setLineState x st').kindOf x = some (.line d st' lu) := by
  simp only [State.kindOf] at h
  cases hr : s.resource x <;> simp_all [State.setLineState, State.kindOf]

theorem State.kindOf_setKind (k k' : Kind) (h : s.kindOf x = some k) : (s.setKind x k').kindOf x = some k' := by
  simp only [State.kindOf] at h
  cases hr : s.resource x <;> simp_all [State.setKind, State.kindOf]

theorem State.kindOf_report (k : LineReportKind) (y : ResNo) : (s.report x k).kindOf y = s.kindOf y := rfl

/-- COOLING: the idle pattern is applied and the guard is timed from now (R76). -/
theorem State.kindOf_cool (d : LineDef) (st : LineState) (lu : PhaseRecord) (h : s.kindOf x = some (.line d st lu)) :
    (s.cool x).kindOf x =
      some (.line d .cooling { applied := none, phase := .guard (s.now + d.guard.toNat) }) := by
  unfold State.cool State.driveIdle State.startGuard
  have h1 := State.kindOf_order s x (fun _ _ => { applied := none, phase := .quiet }) d st lu h
  have h2 := State.kindOf_order _ x (fun d lu => { lu with phase := .guard (s.now + d.guard.toNat) }) d st _ h1
  exact State.kindOf_setLineState _ x .cooling d st _ h2

/-- ENGAGE: the port's drive pattern is applied (R85). -/
theorem State.kindOf_startEngage (d : LineDef) (st : LineState) (lu : PhaseRecord)
    (h : s.kindOf x = some (.line d st lu)) :
    ∃ ph, (s.startEngage x).kindOf x = some (.line d st { lu with phase := ph }) := by
  unfold State.startEngage
  split
  · exact ⟨lu.phase, h⟩
  · exact ⟨_, State.kindOf_order s x _ d st lu h⟩
  · split
    · exact ⟨_, State.kindOf_order s x _ d st lu h⟩
    · exact ⟨_, State.kindOf_order s x _ d st lu h⟩

/-- The choice of R85: VERIFY with the idle pattern kept where the confirm input stands at the engaged level, ENGAGE
with the port's drive pattern otherwise. -/
theorem State.kindOf_engageOrVerify (k : Port) (d : LineDef) (st : LineState) (lu : PhaseRecord)
    (h : s.kindOf x = some (.line d st lu)) :
    (s.engageOrVerify x k).kindOf x = some (.line d .verify { lu with phase := .verify (s.confirmEnds d) })
    ∨ ∃ ph, (s.engageOrVerify x k).kindOf x = some (.line d .engage { applied := some k, phase := ph }) := by
  unfold State.engageOrVerify
  split
  · left
    exact State.kindOf_setLineState _ x .verify d st _ (State.kindOf_order s x _ d st lu h)
  · right
    obtain ⟨ph, hp⟩ := State.kindOf_startEngage (s.drivePattern x k) x d st _ (State.kindOf_order s x _ d st lu h)
    exact ⟨ph, State.kindOf_setLineState _ x .engage d st _ hp⟩

end Sys2Proof.Machine
end

