-- ==== Sys2Proof/Laws/TableEvent.lean ====
section
/-! SUPPORT. What any piece of a Claim Table event may do to the state, said once (`State.TableEvent`) and shown of
every shared operation of Machine/Ops.lean and Machine/Cascade.lean but the filing of a request. -/

namespace Sys2Proof.Machine

/-- The port and the resource of a claim, which never change (R21). -/
def Claim.key (c : Claim) : Port × ResNo := (c.owner, c.resource)

/-- A queue grows only by the adding of notices (R130 to R132). -/
inductive NoticeQueue.Grows (q : NoticeQueue) : NoticeQueue → Prop where
  | refl : NoticeQueue.Grows q q
  | add (r : NoticeQueue) (n : Notice) : NoticeQueue.Grows q r → NoticeQueue.Grows q (r.add n)

theorem NoticeQueue.Grows.trans {q r t : NoticeQueue} (a : q.Grows r) (b : r.Grows t) : q.Grows t := by
  induction b with
  | refl => exact a
  | add r' n _ ih => exact .add r' n ih

/-- R22: no port has two claims on one resource. -/
def State.OneEach (s : State) : Prop := (s.claims.map Claim.key).Nodup

/-- R34, first two clauses, over the list of claims. -/
def exclusiveAmong (cs : List Claim) : Prop :=
  ∀ c ∈ cs, ∀ d ∈ cs, c.resource = d.resource → c.state.isAssigned = true → d.state.isAssigned = true → c ≠ d →
    c.mode = .shared ∧ d.mode = .shared

theorem State.exclusiveLaw_iff (s : State) : s.ExclusiveLaw ↔ exclusiveAmong s.claims := by
  constructor
  · intro h c hc d hd hr ha hb hne
    refine h c.resource c ?_ d ?_ hne
    · simp [State.assigned, hc, ha]
    · simp [State.assigned, hd, hb, hr]
  · intro h x c hc d hd hne
    simp only [State.assigned, List.mem_filter, Bool.and_eq_true, beq_iff_eq] at hc hd
    exact h c hc.1 d hd.1 (hc.2.1.trans hd.2.1.symm) hc.2.2 hd.2.2 hne

/-- What a piece of a Claim Table event may do: it changes nothing outside the table but by adding notices to the
queues of open sessions; no claim appears or changes its port or resource; a FREE or DONE slot stays as it is; no
resource appears or disappears; and the laws of R34 and R75 are kept. -/
structure State.TableEvent (s t : State) : Prop where
  outside : s.SameOutsideClaimTable t
  drainReports : t.drainReports = s.drainReports
  claims : (t.claims.map Claim.key).Sublist (s.claims.map Claim.key)
  slots : ∀ q h, t.slot q h = s.slot q h ∨ (s.slot q h).isOpen = true
  closed : ∀ q, s.isOpen q = false → t.queue q = s.queue q
  grows : ∀ q, (s.queue q).Grows (t.queue q)
  defined : ∀ x, (t.resource x).isSome = (s.resource x).isSome
  drive : s.DriveLaw → t.DriveLaw
  exclusive : s.OneEach → s.ExclusiveLaw → t.ExclusiveLaw

theorem State.TableEvent.refl (s : State) : s.TableEvent s where
  outside := .refl s
  drainReports := rfl
  claims := .refl _
  slots _ _ := .inl rfl
  closed _ _ := rfl
  grows _ := .refl
  defined _ := rfl
  drive h := h
  exclusive _ h := h

theorem State.TableEvent.oneEach {s t : State} (a : s.TableEvent t) (h : s.OneEach) : t.OneEach :=
  a.claims.nodup h

theorem State.TableEvent.trans {s t u : State} (a : s.TableEvent t) (b : t.TableEvent u) : s.TableEvent u where
  outside := a.outside.trans b.outside
  drainReports := b.drainReports.trans a.drainReports
  claims := b.claims.trans a.claims
  slots q h := by
    rcases a.slots q h with ha | ha
    · rcases b.slots q h with hb | hb
      · exact .inl (hb.trans ha)
      · exact .inr (ha ▸ hb)
    · exact .inr ha
  closed q hq := (b.closed q ((a.outside.isOpen q).trans hq)).trans (a.closed q hq)
  grows q := (a.grows q).trans (b.grows q)
  defined x := (b.defined x).trans (a.defined x)
  drive h := b.drive (a.drive h)
  exclusive h1 h2 := b.exclusive (a.oneEach h1) (a.exclusive h1 h2)

theorem State.TableEvent.foldl {α : Type} (f : State → α → State) (hf : ∀ (s : State) (a : α), s.TableEvent (f s a)) (xs : List α)
    (s : State) : s.TableEvent (xs.foldl f s) := by
  induction xs generalizing s with
  | nil => exact .refl s
  | cons a xs ih => exact (hf s a).trans (ih (f s a))

theorem State.TableEvent.claims_length {s t : State} (a : s.TableEvent t) : t.claims.length ≤ s.claims.length := by
  simpa using a.claims.length_le

/-- A claim of the later state has the port and resource of a claim of the earlier one. -/
theorem State.TableEvent.claim_from {s t : State} (a : s.TableEvent t) (c : Claim) (hc : c ∈ t.claims) :
    ∃ d ∈ s.claims, d.owner = c.owner ∧ d.resource = c.resource := by
  have hm : c.key ∈ s.claims.map Claim.key := a.claims.subset (List.mem_map_of_mem hc)
  obtain ⟨d, hd, he⟩ := List.mem_map.mp hm
  simp only [Claim.key, Prod.mk.injEq] at he
  exact ⟨d, hd, he.1, he.2⟩

/-! ## Line Unit orders -/

/-- The law of R75 across an order: only the record of `x` can break it. -/
theorem State.LineOrder.driveLaw {x : ResNo} {s t : State} (a : State.LineOrder x s t) (h : s.DriveLaw)
    (hx : ∀ k, t.kindOf x = some k → k.DriveLaw) : t.DriveLaw := by
  intro y k hk
  by_cases hy : y = x
  · exact hx k (hy ▸ hk)
  · exact h y k (by simpa [State.kindOf, a.others y hy] using hk)

theorem State.LineOrder.isSome {x : ResNo} {s t : State} (a : State.LineOrder x s t) (y : ResNo) :
    (t.resource y).isSome = (s.resource y).isSome := by
  by_cases hy : y = x
  · subst hy
    have := congrArg Option.isSome a.grantNumber
    simpa using this
  · rw [a.others y hy]

theorem State.LineOrder.tableEvent {x : ResNo} {s t : State} (a : State.LineOrder x s t)
    (hx : s.DriveLaw → ∀ k, t.kindOf x = some k → k.DriveLaw) : s.TableEvent t where
  outside := a.outside
  drainReports := a.drainReports
  claims := by rw [a.claims]
  slots q h := .inl (by simp [State.slot, a.slots])
  closed q _ := by simp [State.queue, a.queues]
  grows q := by simp only [State.queue, a.queues]; exact .refl
  defined := a.isSome
  drive h := a.driveLaw h (hx h)
  exclusive _ h := by simpa [State.exclusiveLaw_iff, a.claims] using h

/-- The state of `x` in LINE resources decides whether the law of R75 wants the idle pattern. -/
theorem State.cool_tableEvent (s : State) (x : ResNo) : s.TableEvent (s.cool x) := by
  refine (State.cool_lineOrder s x).tableEvent fun hd k hk => ?_
  cases h : s.kindOf x with
  | none =>
    have : (s.cool x).kindOf x = none := by
      have := (State.cool_lineOrder s x).isSome x
      cases hr : s.resource x <;> cases hc : (s.cool x).resource x <;> simp_all [State.kindOf]
    rw [this] at hk; cases hk
  | some k0 =>
    cases k0 with
    | line d st lu => rw [State.kindOf_cool s x d st lu h] at hk; cases hk; rfl
    | token sh st =>
      have : ∃ st', (s.cool x).kindOf x = some (.token sh st') := by
        simp only [State.kindOf] at h
        cases hr : s.resource x <;>
          simp_all [State.cool, State.driveIdle, State.startGuard, State.order, State.mapPhase, State.staleReports,
            State.setLineState, State.kindOf]
      obtain ⟨st', hs⟩ := this
      rw [hs] at hk; cases hk; trivial

theorem State.faultResource_tableEvent (s : State) (x : ResNo) (reason : FaultReason) :
    s.TableEvent (s.faultResource x reason) := by
  refine (State.faultResource_lineOrder s x reason).tableEvent fun hd k hk => ?_
  unfold State.faultResource at hk
  split at hk
  · next d st lu h =>
    rw [State.kindOf_setLineState (s.driveIdle x) x _ d st _ (State.kindOf_order s x _ d st lu h)] at hk
    cases hk; rfl
  · next h => rw [State.kindOf_setKind _ x _ _ h] at hk; cases hk; trivial
  · next h => rw [h] at hk; cases hk

theorem State.settle_tableEvent (s : State) (x : ResNo) : s.TableEvent (s.settle x) := by
  refine (State.settle_lineOrder s x).tableEvent fun hd k hk => ?_
  unfold State.settle at hk
  split at hk
  · exact hd x k hk
  · next h => rw [State.kindOf_setKind _ x _ _ h] at hk; cases hk; trivial
  · next d lu h =>
    rw [State.kindOf_setLineState _ x _ d _ lu h] at hk; cases hk
    exact show lu.applied = none from hd x _ h
  · next d lu h =>
    rw [State.kindOf_setLineState (s.driveIdle x) x _ d _ _ (State.kindOf_order s x _ d _ lu h)] at hk; cases hk; rfl
  · next d lu h => rw [State.kindOf_cool s x d _ lu h] at hk; cases hk; rfl
  · next d lu h => rw [State.kindOf_cool s x d _ lu h] at hk; cases hk; rfl
  · exact hd x k hk

theorem State.beginItem_tableEvent (s : State) (p : Port) (x : ResNo) : s.TableEvent (s.beginItem p x) := by
  refine (State.beginItem_lineOrder s x p).tableEvent fun hd k hk => ?_
  unfold State.beginItem at hk
  split at hk
  · next h => rw [State.kindOf_setKind _ x _ _ h] at hk; cases hk; trivial
  · next d lu h =>
    rw [State.kindOf_setLineState _ x _ d _ lu h] at hk; cases hk
    exact show lu.applied = none from hd x _ h
  · next d lu h =>
    rcases State.kindOf_engageOrVerify s x p d _ lu h with hv | ⟨ph, hv⟩
    · rw [hv] at hk; cases hk; exact show lu.applied = none from hd x _ h
    · rw [hv] at hk; cases hk; simp [Kind.DriveLaw]
  · exact hd x k hk

/-! ## Notices -/

theorem State.notify_tableEvent (s : State) (p : Port) (n : Notice) : s.TableEvent (s.notify p n) := by
  unfold State.notify
  split
  · next ho =>
    refine ⟨by constructor <;> rfl, rfl, .refl _, fun _ _ => .inl rfl, fun q hq => ?_, fun q => ?_, fun _ => rfl,
      fun h => h, fun _ h => h⟩
    · have : p ≠ q := by rintro rfl; simp [ho] at hq
      simp [this]
    · simp only [State.queue_setQueue]
      split
      · next e => subst e; exact .add _ _ .refl
      · exact .refl
  · exact .refl s

theorem State.notifyMode_tableEvent (s : State) (m : DeviceMode) : s.TableEvent (s.notifyMode m) :=
  State.TableEvent.foldl _ (fun s p => State.notify_tableEvent s p _) _ s

/-! ## Claims and slots -/

theorem exclusiveAmong.sublist {cs ds : List Claim} (h : exclusiveAmong ds) (hs : cs.Sublist ds) : exclusiveAmong cs :=
  fun c hc d hd => h c (hs.subset hc) d (hs.subset hd)

/-- Claims leave, and no other changes. -/
theorem State.setClaims_sublist_tableEvent (s : State) (cs : List Claim) (h : cs.Sublist s.claims) :
    s.TableEvent (s.setClaims cs) := by
  refine ⟨by constructor <;> rfl, rfl, ?_, fun _ _ => .inl rfl, fun _ _ => rfl, fun _ => .refl, fun _ => rfl,
    fun h => h, fun _ hx => ?_⟩
  · simpa using h.map Claim.key
  · rw [State.exclusiveLaw_iff] at *; exact hx.sublist h

/-- Claims change, but not their port, resource or mode, and none becomes assigned. -/
theorem State.setClaims_map_tableEvent (s : State) (f : Claim → Claim)
    (hk : ∀ c, (f c).key = c.key) (hm : ∀ c, (f c).mode = c.mode)
    (ha : ∀ c, (f c).state.isAssigned = true → c.state.isAssigned = true) :
    s.TableEvent (s.setClaims (s.claims.map f)) := by
  refine ⟨by constructor <;> rfl, rfl, ?_, fun _ _ => .inl rfl, fun _ _ => rfl, fun _ => .refl, fun _ => rfl,
    fun h => h, fun _ hx => ?_⟩
  · simp [Function.comp_def, hk]
  · rw [State.exclusiveLaw_iff] at *
    intro c hc d hd hr h1 h2 hne
    simp only [State.claims_setClaims, List.mem_map] at hc hd
    obtain ⟨c0, hc0, rfl⟩ := hc
    obtain ⟨d0, hd0, rfl⟩ := hd
    have hkc := hk c0; have hkd := hk d0
    simp only [Claim.key, Prod.mk.injEq] at hkc hkd
    rw [hm, hm]
    exact hx c0 hc0 d0 hd0 (by rw [← hkc.2, ← hkd.2, hr]) (ha _ h1) (ha _ h2) (fun e => hne (by rw [e]))

/-- A slot that holds an open request is written. -/
theorem State.setSlot_tableEvent (s : State) (p : Port) (h : Handle) (v : Slot) (ho : (s.slot p h).isOpen = true) :
    s.TableEvent (s.setSlot p h v) := by
  refine ⟨by constructor <;> rfl, rfl, .refl _, fun q k => ?_, fun _ _ => rfl, fun _ => .refl, fun _ => rfl,
    fun h => h, fun _ h => h⟩
  by_cases e : p = q ∧ h = k
  · exact .inr (by obtain ⟨rfl, rfl⟩ := e; exact ho)
  · exact .inl (by simp [e])

theorem State.removeClaims_tableEvent (s : State) (sel : Claim → Bool) : s.TableEvent (s.removeClaims sel) := by
  unfold State.removeClaims
  exact (State.setClaims_sublist_tableEvent s _ List.filter_sublist).trans
    (State.TableEvent.foldl _ State.settle_tableEvent _ _)

/-- The claims after a removal: exactly those not selected, in their order (R20, R32). -/
theorem State.removeClaims_claims (s : State) (sel : Claim → Bool) :
    (s.removeClaims sel).claims = s.claims.filter fun c => !sel c := by
  unfold State.removeClaims
  generalize ((s.claims.filter fun c => sel c && c.state.isAssigned).map fun c => c.resource) = xs
  suffices ∀ t : State, (xs.foldl State.settle t).claims = t.claims by rw [this]; rfl
  intro t
  induction xs generalizing t with
  | nil => rfl
  | cons x xs ih => rw [List.foldl_cons, ih, (State.settle_lineOrder t x).claims]

theorem State.removeClaims_slots (s : State) (sel : Claim → Bool) : (s.removeClaims sel).slots = s.slots := by
  unfold State.removeClaims
  generalize ((s.claims.filter fun c => sel c && c.state.isAssigned).map fun c => c.resource) = xs
  suffices ∀ t : State, (xs.foldl State.settle t).slots = t.slots by rw [this]; rfl
  intro t
  induction xs generalizing t with
  | nil => rfl
  | cons x xs ih => rw [List.foldl_cons, ih, (State.settle_lineOrder t x).slots]

theorem State.removeClaims_queues (s : State) (sel : Claim → Bool) : (s.removeClaims sel).queues = s.queues := by
  unfold State.removeClaims
  generalize ((s.claims.filter fun c => sel c && c.state.isAssigned).map fun c => c.resource) = xs
  suffices ∀ t : State, (xs.foldl State.settle t).queues = t.queues by rw [this]; rfl
  intro t
  induction xs generalizing t with
  | nil => rfl
  | cons x xs ih => rw [List.foldl_cons, ih, (State.settle_lineOrder t x).queues]

theorem State.revoke_tableEvent (s : State) (x : ResNo) (reason : RevokeReason) (sel : Claim → Bool) :
    s.TableEvent (s.revoke x reason sel) := by
  unfold State.revoke
  exact (State.removeClaims_tableEvent s _).trans
    (State.TableEvent.foldl _ (fun s (c : Claim) => State.notify_tableEvent s c.owner _) _ _)

theorem State.notify_claims (s : State) (p : Port) (n : Notice) : (s.notify p n).claims = s.claims := by
  unfold State.notify; split <;> rfl

theorem State.notify_slots (s : State) (p : Port) (n : Notice) : (s.notify p n).slots = s.slots := by
  unfold State.notify; split <;> rfl

theorem State.notify_resources (s : State) (p : Port) (n : Notice) : (s.notify p n).resources = s.resources := by
  unfold State.notify; split <;> rfl

theorem State.foldl_notify_claims {α : Type} (f : α → Port) (g : α → Notice) (xs : List α) (s : State) :
    (xs.foldl (fun s a => s.notify (f a) (g a)) s).claims = s.claims := by
  induction xs generalizing s with
  | nil => rfl
  | cons a xs ih => rw [List.foldl_cons, ih, State.notify_claims]

theorem State.foldl_notify_slots {α : Type} (f : α → Port) (g : α → Notice) (xs : List α) (s : State) :
    (xs.foldl (fun s a => s.notify (f a) (g a)) s).slots = s.slots := by
  induction xs generalizing s with
  | nil => rfl
  | cons a xs ih => rw [List.foldl_cons, ih, State.notify_slots]

theorem State.revoke_claims (s : State) (x : ResNo) (reason : RevokeReason) (sel : Claim → Bool) :
    (s.revoke x reason sel).claims = s.claims.filter fun c => !(c.resource == x && c.state.isHeld && sel c) := by
  unfold State.revoke
  rw [State.foldl_notify_claims, State.removeClaims_claims]

theorem State.revoke_slots (s : State) (x : ResNo) (reason : RevokeReason) (sel : Claim → Bool) :
    (s.revoke x reason sel).slots = s.slots := by
  unfold State.revoke
  rw [State.foldl_notify_slots, State.removeClaims_slots]

theorem State.endRequest_tableEvent (s : State) (p : Port) (h : Handle) (o : SlotOutcome) (n : Notice) :
    s.TableEvent (s.endRequest p h o n) := by
  unfold State.endRequest
  have hs : ∀ v, s.slot p h = v → ((s.removeClaims (Claim.ofRequest p h)).notify p n).slot p h = v := by
    intro v hv
    simpa [State.slot, State.notify_slots, State.removeClaims_slots] using hv
  split
  · next f t e =>
    exact ((State.removeClaims_tableEvent s _).trans (State.notify_tableEvent _ p n)).trans
      (State.setSlot_tableEvent _ p h _ (by rw [hs _ e]; rfl))
  · next f t e =>
    exact ((State.removeClaims_tableEvent s _).trans (State.notify_tableEvent _ p n)).trans
      (State.setSlot_tableEvent _ p h _ (by rw [hs _ e]; rfl))
  · exact .refl s

theorem State.failAll_tableEvent (s : State) (rs : List (Port × Handle)) (x : ResNo) (reason : FailReason) :
    s.TableEvent (s.failAll rs x reason) :=
  State.TableEvent.foldl (fun s (r : Port × Handle) => s.failRequest r.1 r.2 x reason)
    (fun s (r : Port × Handle) => State.endRequest_tableEvent s r.1 r.2 .failed (.failed r.2 x reason)) rs s

theorem State.beginYield_tableEvent (s : State) (x : ResNo) (sel : Claim → Bool) : s.TableEvent (s.beginYield x sel) := by
  unfold State.beginYield
  simp only
  split
  · exact .refl s
  · split
    · exact State.revoke_tableEvent s x _ _
    · refine (State.setClaims_map_tableEvent s _ ?_ ?_ ?_).trans
        (State.TableEvent.foldl _ (fun s (c : Claim) => State.notify_tableEvent s c.owner _) _ _)
      · intro c; split <;> rfl
      · intro c; split <;> rfl
      · intro c hc
        split at hc
        · next h =>
          simp only [Bool.and_eq_true] at h
          cases hs : c.state <;> simp_all [ClaimState.isOvertime, ClaimState.isAssigned]
        · exact hc

/-! ## Grant and reservation -/

theorem State.grantItem_tableEvent (s : State) (p : Port) (h : Handle) (x : ResNo) : s.TableEvent (s.grantItem p h x) := by
  unfold State.grantItem
  split
  · exact .refl s
  · next r hr =>
    refine State.TableEvent.trans (t := s.setResource x _) ?_ (State.setClaims_map_tableEvent _ _ ?_ ?_ ?_)
    · refine ⟨by constructor <;> rfl, rfl, .refl _, fun _ _ => .inl rfl, fun _ _ => rfl, fun _ => .refl, fun y => ?_,
        fun hd y k hk => ?_, fun _ h => h⟩
      · simp only [State.resource_setResource]; split
        · next e => subst e; simp [hr]
        · rfl
      · simp only [State.kindOf, State.resource_setResource] at hk
        split at hk
        · next e =>
          subst e
          have := hd x r.kind (by simp [State.kindOf, hr])
          simp only [Option.map_some, Option.some.injEq] at hk
          rw [← hk]
          split
          · next e => rw [e] at this; exact this
          · exact this
        · exact hd y k hk
    · intro c; split <;> rfl
    · intro c; split <;> rfl
    · intro c hc
      split at hc
      · next hcond =>
        simp only [Bool.and_eq_true] at hcond
        cases hs : c.state <;> simp_all [ClaimState.isReserved, ClaimState.isAssigned]
      · exact hc

theorem State.grantItem_slots (s : State) (p : Port) (h : Handle) (x : ResNo) : (s.grantItem p h x).slots = s.slots := by
  unfold State.grantItem; split <;> rfl

theorem State.foldl_grantItem_slots (p : Port) (h : Handle) (xs : List ResNo) (s : State) :
    (xs.foldl (fun s x => s.grantItem p h x) s).slots = s.slots := by
  induction xs generalizing s with
  | nil => rfl
  | cons a xs ih => rw [List.foldl_cons, ih, State.grantItem_slots]

theorem State.grant_tableEvent (imm : Option (Port × Handle)) (s : State) (p : Port) (h : Handle) :
    s.TableEvent (State.grant imm s p h) := by
  unfold State.grant
  split
  · next f pend e =>
    have h1 : s.TableEvent ((f.items.map fun i => i.resource).foldl (fun s x => s.grantItem p h x) s) :=
      State.TableEvent.foldl _ (fun s x => State.grantItem_tableEvent s p h x) _ s
    have hsl : ∀ u : State, u.slots = s.slots → (u.slot p h).isOpen = true := by
      intro u hu
      have : u.slot p h = s.slot p h := by simp [State.slot, hu]
      rw [this, e]; rfl
    dsimp only
    split
    · exact h1.trans (State.setSlot_tableEvent _ p h _ (hsl _ (State.foldl_grantItem_slots p h _ s)))
    · refine (h1.trans (State.notify_tableEvent _ p _)).trans (State.setSlot_tableEvent _ p h _ (hsl _ ?_))
      rw [State.notify_slots, State.foldl_grantItem_slots]
  · exact .refl s

/-- The claims of a request become RESERVED. -/
def Claim.reservedIn (p : Port) (h : Handle) (c : Claim) : Claim :=
  if Claim.ofRequest p h c then { c with state := .reserved h } else c

theorem Claim.reservedIn_key (p : Port) (h : Handle) (c : Claim) : (c.reservedIn p h).key = c.key := by
  unfold Claim.reservedIn; split <;> rfl

theorem Claim.reservedIn_mode (p : Port) (h : Handle) (c : Claim) : (c.reservedIn p h).mode = c.mode := by
  unfold Claim.reservedIn; split <;> rfl

/-- A claim that is clear can stand beside the claims assigned on its resource (R33). -/
theorem State.clear_compatible (s : State) (c d : Claim) (h : s.clear c = true) (hd : d ∈ s.claims)
    (hr : d.resource = c.resource) (ha : d.state.isAssigned = true) : c.mode = .shared ∧ d.mode = .shared := by
  have hm : d ∈ s.assigned c.resource := by simp [State.assigned, hd, hr, ha]
  unfold State.clear at h
  simp only [Bool.and_eq_true] at h
  obtain ⟨⟨⟨-, h2⟩, -⟩, -⟩ := h
  split at h2
  · cases h2
  · simp only [Bool.and_eq_true] at h2
    cases hc : c.mode with
    | exclusive =>
      rw [hc] at h2
      simp only [Bool.and_eq_true, List.isEmpty_iff] at h2
      rw [h2.2.1] at hm; cases hm
    | shared =>
      rw [hc] at h2
      have := (List.all_eq_true.mp h2.2) d hm
      exact ⟨rfl, by simpa using this⟩

/-- Every claim of a ready request is clear (R35). -/
theorem State.ready_clear (s : State) (p : Port) (h : Handle) (hr : s.ready p h = true) (c : Claim) (hc : c ∈ s.claims)
    (ho : Claim.ofRequest p h c = true) : s.clear c = true := by
  simp only [State.ready, Bool.and_eq_true, List.all_eq_true] at hr
  simpa [ho] using hr.2 c hc

/-- A ready request stands in a WAITING slot (R35). -/
theorem State.ready_waiting (s : State) (p : Port) (h : Handle) (hr : s.ready p h = true) :
    (s.slot p h).isWaiting = true := by
  simp only [State.ready, Bool.and_eq_true] at hr
  have := hr.1
  revert this
  cases s.slot p h <;> simp [Slot.isWaiting]

theorem State.reserveClaims_tableEvent (s : State) (p : Port) (h : Handle) (hr : s.ready p h = true) :
    s.TableEvent (s.setClaims (s.claims.map (Claim.reservedIn p h))) := by
  refine ⟨by constructor <;> rfl, rfl, ?_, fun _ _ => .inl rfl, fun _ _ => rfl, fun _ => .refl, fun _ => rfl,
    fun h => h, fun h1 hx => ?_⟩
  · simp [Function.comp_def, Claim.reservedIn_key]
  · rw [State.exclusiveLaw_iff] at *
    intro c hc d hd hres ha hb hne
    simp only [State.claims_setClaims, List.mem_map] at hc hd
    obtain ⟨c0, hc0, rfl⟩ := hc
    obtain ⟨d0, hd0, rfl⟩ := hd
    have hkc := Claim.reservedIn_key p h c0
    have hkd := Claim.reservedIn_key p h d0
    simp only [Claim.key, Prod.mk.injEq] at hkc hkd
    have hres0 : c0.resource = d0.resource := by rw [← hkc.2, ← hkd.2, hres]
    have hne0 : c0 ≠ d0 := fun e => hne (by rw [e])
    have hown : c0.owner ≠ d0.owner := by
      intro e
      exact hne0 (List.inj_on_of_nodup_map h1 hc0 hd0 (by simp [Claim.key, e, hres0]))
    rw [Claim.reservedIn_mode, Claim.reservedIn_mode]
    by_cases h1 : Claim.ofRequest p h c0 = true
    · by_cases h2 : Claim.ofRequest p h d0 = true
      · simp only [Claim.ofRequest, Bool.and_eq_true, beq_iff_eq] at h1 h2
        exact absurd (h1.1.trans h2.1.symm) hown
      · have hb' : d0.state.isAssigned = true := by simpa [Claim.reservedIn, h2] using hb
        exact State.clear_compatible s c0 d0 (s.ready_clear p h hr c0 hc0 h1) hd0 hres0.symm hb'
    · have ha' : c0.state.isAssigned = true := by simpa [Claim.reservedIn, h1] using ha
      by_cases h2 : Claim.ofRequest p h d0 = true
      · exact (State.clear_compatible s d0 c0 (s.ready_clear p h hr d0 hd0 h2) hc0 hres0 ha').symm
      · have hb' : d0.state.isAssigned = true := by simpa [Claim.reservedIn, h2] using hb
        exact hx c0 hc0 d0 hd0 hres0 ha' hb' hne0

theorem State.beginItem_slots (s : State) (p : Port) (x : ResNo) : (s.beginItem p x).slots = s.slots :=
  (State.beginItem_lineOrder s x p).slots

theorem State.foldl_beginItem_slots (p : Port) (xs : List ResNo) (s : State) :
    (xs.foldl (fun s x => s.beginItem p x) s).slots = s.slots := by
  induction xs generalizing s with
  | nil => rfl
  | cons a xs ih => rw [List.foldl_cons, ih, State.beginItem_slots]

theorem State.reserve_tableEvent (imm : Option (Port × Handle)) (s : State) (p : Port) (h : Handle)
    (hr : s.ready p h = true) : s.TableEvent (State.reserve imm s p h) := by
  unfold State.reserve
  split
  · next f t e =>
    dsimp only
    have h1 := State.reserveClaims_tableEvent s p h hr
    have h2 := h1.trans (State.TableEvent.foldl (fun s x => s.beginItem p x)
      (fun s x => State.beginItem_tableEvent s p x) (f.items.map fun i => i.resource) _)
    have h3 := h2.trans (State.setSlot_tableEvent _ p h
      (.assembling f ((f.items.map fun i => i.resource).filter s.isLineRes)) (by
        have : ∀ u : State, u.slots = s.slots → (u.slot p h).isOpen = true := by
          intro u hu
          have : u.slot p h = s.slot p h := by simp [State.slot, hu]
          rw [this, e]; rfl
        apply this; rw [State.foldl_beginItem_slots]; rfl))
    split
    · exact h3.trans (State.grant_tableEvent imm _ p h)
    · exact h3
  · exact .refl s

/-! ## Evaluation -/

/-- Whatever every reservation of a ready request keeps, evaluation keeps (R36). -/
theorem State.evaluateFor_keeps (P : State → Prop) (imm : Option (Port × Handle))
    (hP : ∀ s p h, s.ready p h = true → P s → P (State.reserve imm s p h)) (n : Nat) (xs : List ResNo) (s : State)
    (hs : P s) : P (State.evaluateFor imm n xs s) := by
  induction n generalizing xs s with
  | zero => exact hs
  | succ n ih =>
    cases xs with
    | nil => exact hs
    | cons x rest =>
      rw [State.evaluateFor]
      split
      · exact ih rest s hs
      · next p h _ =>
        split
        · next hr => exact ih _ _ (hP s p h hr hs)
        · exact ih rest s hs

theorem State.evaluateFor_tableEvent (imm : Option (Port × Handle)) (n : Nat) (xs : List ResNo) (s : State) :
    s.TableEvent (State.evaluateFor imm n xs s) :=
  State.evaluateFor_keeps (fun t => s.TableEvent t) imm
    (fun t p h hr ht => ht.trans (State.reserve_tableEvent imm t p h hr)) n xs s (.refl s)

theorem State.evaluateWith_tableEvent (imm : Option (Port × Handle)) (s : State) (xs : List ResNo) :
    s.TableEvent (s.evaluateWith imm xs) := State.evaluateFor_tableEvent imm _ _ s

theorem State.evaluate_tableEvent (s : State) (xs : List ResNo) : s.TableEvent (s.evaluate xs) :=
  State.evaluateWith_tableEvent none s xs

/-- Evaluation does nothing where no head claim's request is ready. -/
theorem State.evaluateFor_idle (imm : Option (Port × Handle)) (n : Nat) (xs : List ResNo) (s : State)
    (h : ∀ x ∈ xs, ∀ p k, s.headRequest x = some (p, k) → s.ready p k = false) :
    State.evaluateFor imm n xs s = s := by
  induction n generalizing xs with
  | zero => rfl
  | succ n ih =>
    cases xs with
    | nil => rfl
    | cons x rest =>
      have hrest := ih rest (fun y hy => h y (List.mem_cons_of_mem _ hy))
      rw [State.evaluateFor]
      split
      · exact hrest
      · next p k e => simp [h x List.mem_cons_self p k e, hrest]

theorem placeRes_mem (x y : ResNo) (xs : List ResNo) : y ∈ placeRes x xs ↔ y = x ∨ y ∈ xs := by
  induction xs with
  | nil => simp [placeRes]
  | cons z zs ih =>
    simp only [placeRes]
    split
    · simp
    · split
      · next e => subst e; simp
      · simp [ih]; tauto

theorem placeAll_mem (xs set : List ResNo) (y : ResNo) : y ∈ placeAll xs set ↔ y ∈ xs ∨ y ∈ set := by
  induction xs with
  | nil => simp [placeAll]
  | cons x xs ih =>
    have : placeAll (x :: xs) set = placeRes x (placeAll xs set) := rfl
    rw [this, placeRes_mem, ih]; simp [or_assoc]

theorem State.evaluate_idle (s : State) (xs : List ResNo)
    (h : ∀ x ∈ xs, ∀ p k, s.headRequest x = some (p, k) → s.ready p k = false) : s.evaluate xs = s := by
  refine State.evaluateFor_idle none _ _ s fun x hx => h x ?_
  simpa [placeAll_mem] using hx

/-- No request is ready while the mode is not SERVICE, unless it has no claim at all (R33, R35). -/
theorem State.evaluate_nothing_waits (s : State) (xs : List ResNo) (h : ∀ x ∈ xs, s.waitQueue x = []) :
    s.evaluate xs = s := by
  refine State.evaluate_idle s xs fun x hx p k e => ?_
  simp [State.headRequest, State.headClaim, h x hx] at e

theorem State.withdrawAll_tableEvent (s : State) : s.TableEvent s.withdrawAll := by
  refine State.TableEvent.foldl _ (fun s p => State.TableEvent.foldl _ (fun s h => ?_) _ s) _ s
  split
  · exact State.endRequest_tableEvent s p h _ _
  · exact .refl s

end Sys2Proof.Machine
end

