-- ==== Sys2Proof/Laws/Queues.lean ====
section
/-! SUPPORT. The laws of a notice queue under the adding of a notice and under FETCH (R131 to R137). -/

namespace Sys2Proof.Machine

/-! ## Keys -/

/-- A number for each of the 73 keys (R133). -/
def NoticeKey.index : NoticeKey → Nat
  | .handle h => h.val
  | .resource x => 8 + x.val
  | .mode => 72

theorem NoticeKey.index_lt (k : NoticeKey) : k.index < 73 := by
  cases k <;> simp only [NoticeKey.index] <;> omega

theorem NoticeKey.index_inj {k l : NoticeKey} (h : k.index = l.index) : k = l := by
  cases k <;> cases l <;> simp only [NoticeKey.index] at h <;>
    first
    | rfl
    | (simp only [NoticeKey.handle.injEq, NoticeKey.resource.injEq]; exact Fin.ext (by omega))
    | omega

/-- A list of distinct keys has at most 73 (R133). -/
theorem keys_length_le {ks : List NoticeKey} (h : ks.Nodup) : ks.length ≤ 73 := by
  have hn : (ks.map NoticeKey.index).Nodup := h.map fun _ _ e => NoticeKey.index_inj e
  have hs : (ks.map NoticeKey.index) ⊆ List.range 73 := by
    intro i hi
    obtain ⟨k, -, rfl⟩ := List.mem_map.mp hi
    exact List.mem_range.mpr k.index_lt
  simpa using (hn.subperm hs).length_le

/-- R133: a queue that keeps its law holds at most 73 entries. -/
theorem NoticeQueue.Law.length_le {q : NoticeQueue} (h : q.Law) : q.entries.length ≤ 73 := by
  simpa using keys_length_le h.keys

/-! ## Sequence numbers -/

theorem seqSucc_ne_zero (w : Word16) : seqSucc w ≠ 0 := by
  unfold seqSucc; split
  · decide
  · next h => intro e; apply h; bv_omega

theorem seqSucc_toNat (w : Word16) : (seqSucc w).toNat = if w.toNat = 65535 then 1 else w.toNat + 1 := by
  unfold seqSucc
  by_cases h : w = 0xFFFF
  · subst h; rfl
  · have : w.toNat ≠ 65535 := fun e => h (by apply BitVec.eq_of_toNat_eq; simpa using e)
    have hl := w.isLt
    simp only [h, this, if_false]
    rw [BitVec.toNat_add]; simp; omega

/-- The number `i` places after `w` in the ring 1 to 65 535. -/
theorem seqSucc_iterate (w : Word16) (hw : w ≠ 0) (i : Nat) :
    (seqSucc^[i] w).toNat = (w.toNat - 1 + i) % 65535 + 1 := by
  have hp : 0 < w.toNat := by
    rcases Nat.eq_zero_or_pos w.toNat with h | h
    · exact absurd (BitVec.eq_of_toNat_eq (by simpa using h)) hw
    · exact h
  have hl := w.isLt
  induction i with
  | zero => simp; omega
  | succ i ih =>
    rw [Function.iterate_succ_apply', seqSucc_toNat, ih]
    split <;> omega

theorem freeSeq_spec (es : List Entry) (n : Nat) (w : Word16) :
    (∀ e ∈ es, e.seq ≠ freeSeq es n w)
    ∨ (freeSeq es n w = seqSucc^[n] w ∧ ∀ i < n, ∃ e ∈ es, e.seq = seqSucc^[i] w) := by
  induction n generalizing w with
  | zero => right; exact ⟨rfl, fun i hi => absurd hi (Nat.not_lt_zero i)⟩
  | succ n ih =>
    rw [freeSeq]
    split
    · next h =>
      rcases ih (seqSucc w) with h1 | ⟨h1, h2⟩
      · exact .inl h1
      · refine .inr ⟨by rw [h1, Function.iterate_succ_apply], fun i hi => ?_⟩
        cases i with
        | zero =>
          obtain ⟨e, he, hs⟩ := List.any_eq_true.mp h
          exact ⟨e, he, by simpa using hs⟩
        | succ i =>
          obtain ⟨e, he, hs⟩ := h2 i (by omega)
          exact ⟨e, he, by rw [hs, Function.iterate_succ_apply]⟩
    · next h =>
      left; intro e he hs
      exact h (List.any_eq_true.mpr ⟨e, he, by simp [hs]⟩)

theorem freeSeq_ne_zero (es : List Entry) (n : Nat) (w : Word16) (hw : w ≠ 0) : freeSeq es n w ≠ 0 := by
  induction n generalizing w with
  | zero => exact hw
  | succ n ih =>
    rw [freeSeq]
    split
    · exact ih _ (seqSucc_ne_zero w)
    · exact hw

/-- R131: as many tries as there are entries reach a number that no entry carries. -/
theorem freeSeq_fresh (es : List Entry) (w : Word16) (hw : w ≠ 0) (hl : es.length < 65535) :
    ∀ e ∈ es, e.seq ≠ freeSeq es es.length w := by
  rcases freeSeq_spec es es.length w with h | ⟨h1, h2⟩
  · exact h
  · intro e he hs
    have hnd : ((List.range (es.length + 1)).map fun i => seqSucc^[i] w).Nodup := by
      refine List.Nodup.map_on ?_ List.nodup_range
      intro i hi j hj hij
      have h3 := congrArg BitVec.toNat hij
      simp only [seqSucc_iterate w hw] at h3
      simp only [List.mem_range] at hi hj
      omega
    have hsub : ((List.range (es.length + 1)).map fun i => seqSucc^[i] w) ⊆ es.map fun e => e.seq := by
      intro v hv
      obtain ⟨i, hi, rfl⟩ := List.mem_map.mp hv
      simp only [List.mem_range] at hi
      rcases Nat.lt_or_ge i es.length with hlt | hge
      · obtain ⟨e', he', hs'⟩ := h2 i hlt
        exact List.mem_map.mpr ⟨e', he', hs'⟩
      · have : i = es.length := by omega
        subst this
        exact List.mem_map.mpr ⟨e, he, by rw [hs, h1]⟩
    have := (hnd.subperm hsub).length_le
    simp at this

/-! ## Adding a notice -/

/-- R130, R132: the entries after an addition. -/
theorem NoticeQueue.add_entries (q : NoticeQueue) (n : Notice) :
    (q.add n).entries =
      (q.entries.filter fun e => e.notice.key != n.key) ++ [{ seq := q.nextSeq, notice := n, delivered := false }] := rfl

theorem NoticeQueue.add_incarnation (q : NoticeQueue) (n : Notice) : (q.add n).incarnation = q.incarnation := rfl

/-- An addition keeps the law of the queue (R131, R132, R133). -/
theorem NoticeQueue.Law.add {q : NoticeQueue} (h : q.Law) (n : Notice) : (q.add n).Law := by
  have hsub : (q.entries.filter fun e => e.notice.key != n.key).Sublist q.entries := List.filter_sublist
  have hk : ((q.add n).entries.map fun e => e.notice.key).Nodup := by
    rw [NoticeQueue.add_entries, List.map_append, List.nodup_append]
    refine ⟨(hsub.map _).nodup h.keys, by simp, ?_⟩
    intro a ha b hb
    obtain ⟨e, he, rfl⟩ := List.mem_map.mp ha
    simp only [List.map_cons, List.map_nil, List.mem_singleton] at hb
    subst hb
    simpa using (List.mem_filter.mp he).2
  have hs : ((q.add n).entries.map fun e => e.seq).Nodup := by
    rw [NoticeQueue.add_entries, List.map_append, List.nodup_append]
    refine ⟨(hsub.map _).nodup h.seqs, by simp, ?_⟩
    intro a ha b hb
    obtain ⟨e, he, rfl⟩ := List.mem_map.mp ha
    simp only [List.map_cons, List.map_nil, List.mem_singleton] at hb
    subst hb
    exact h.fresh e (hsub.subset he)
  refine ⟨hk, hs, ?_, freeSeq_ne_zero _ _ _ (seqSucc_ne_zero _), ?_⟩
  · intro e he
    rw [NoticeQueue.add_entries, List.mem_append] at he
    rcases he with he | he
    · exact h.nonzero e (hsub.subset he)
    · rw [List.mem_singleton.mp he]; exact h.next
  · have hl : (q.add n).entries.length ≤ 73 := by simpa using keys_length_le hk
    exact freeSeq_fresh (q.add n).entries _ (seqSucc_ne_zero _) (by omega)

theorem NoticeQueue.Grows.law {q r : NoticeQueue} (g : q.Grows r) (h : q.Law) : r.Law := by
  induction g with
  | refl => exact h
  | add r n _ ih => exact ih.add n

theorem NoticeQueue.Grows.incarnation {q r : NoticeQueue} (g : q.Grows r) : r.incarnation = q.incarnation := by
  induction g with
  | refl => rfl
  | add r n _ ih => exact ih

/-! ## The delivered run -/

/-- Delivered entries followed by undelivered ones. -/
def runFirst : List Entry → Prop
  | [] => True
  | e :: es => if e.delivered = true then runFirst es else ∀ d ∈ es, d.delivered = false

theorem runFirst_of_undelivered {es : List Entry} (h : ∀ e ∈ es, e.delivered = false) : runFirst es := by
  cases es with
  | nil => trivial
  | cons e es =>
    have := h e List.mem_cons_self
    simp only [runFirst, this, Bool.false_eq_true, if_false]
    exact fun d hd => h d (List.mem_cons_of_mem _ hd)

theorem NoticeQueue.deliveredFirst_iff (q : NoticeQueue) : q.DeliveredFirst ↔ runFirst q.entries := by
  unfold NoticeQueue.DeliveredFirst
  generalize q.entries = es
  induction es with
  | nil => simp [runFirst]
  | cons e es ih =>
    simp only [runFirst]
    constructor
    · rintro ⟨n, h1, h2⟩
      cases n with
      | zero =>
        have he : e.delivered = false := h2 e (by simp)
        simp only [he, Bool.false_eq_true, if_false]
        exact fun d hd => h2 d (by simp [hd])
      | succ n =>
        have he : e.delivered = true := h1 e (by simp)
        simp only [he, if_true]
        exact ih.mp ⟨n, fun d hd => h1 d (by simp [hd]), fun d hd => h2 d (by simpa using hd)⟩
    · intro h
      split at h
      · next he =>
        obtain ⟨n, h1, h2⟩ := ih.mpr h
        refine ⟨n + 1, ?_, by simpa using h2⟩
        intro d hd
        simp only [List.take_succ_cons, List.mem_cons] at hd
        rcases hd with rfl | hd
        · exact he
        · exact h1 d hd
      · next he =>
        refine ⟨0, by simp, ?_⟩
        intro d hd
        simp only [List.drop_zero, List.mem_cons] at hd
        rcases hd with rfl | hd
        · simpa using he
        · exact h d hd

theorem runFirst.filter {es : List Entry} (p : Entry → Bool) (h : runFirst es) : runFirst (es.filter p) := by
  induction es with
  | nil => trivial
  | cons e es ih =>
    simp only [runFirst] at h
    rw [List.filter_cons]
    split
    · simp only [runFirst]
      split at h
      · next he => simp only [he, if_true]; exact ih h
      · next he => simp only [he]; exact fun d hd => h d (List.mem_filter.mp hd).1
    · split at h
      · exact ih h
      · exact runFirst_of_undelivered fun d hd => h d (List.mem_filter.mp hd).1

theorem runFirst.append {es : List Entry} (h : runFirst es) (e : Entry) (he : e.delivered = false) :
    runFirst (es ++ [e]) := by
  induction es with
  | nil => simp [runFirst, he]
  | cons d es ih =>
    simp only [List.cons_append, runFirst] at h ⊢
    split at h
    · next hd => simp only [hd, if_true]; exact ih h
    · next hd =>
      simp only [hd]
      intro f hf
      rcases List.mem_append.mp hf with hf | hf
      · exact h f hf
      · rw [List.mem_singleton.mp hf]; exact he

theorem runFirst.drop {es : List Entry} (h : runFirst es) (n : Nat) : runFirst (es.drop n) := by
  induction es generalizing n with
  | nil => simpa using h
  | cons e es ih =>
    cases n with
    | zero => exact h
    | succ n =>
      simp only [runFirst] at h
      rw [List.drop_succ_cons]
      split at h
      · exact ih h n
      · exact runFirst_of_undelivered fun d hd => h d (List.drop_subset n es hd)

theorem NoticeQueue.DeliveredFirst.add {q : NoticeQueue} (h : q.DeliveredFirst) (n : Notice) :
    (q.add n).DeliveredFirst := by
  rw [NoticeQueue.deliveredFirst_iff] at *
  exact (h.filter _).append _ rfl

theorem NoticeQueue.Grows.deliveredFirst {q r : NoticeQueue} (g : q.Grows r) (h : q.DeliveredFirst) :
    r.DeliveredFirst := by
  induction g with
  | refl => exact h
  | add r n _ ih => exact ih.add n

/-! ## FETCH -/

theorem deliver_map {α : Type} (f : Entry → α) (hf : ∀ e b, f { e with delivered := b } = f e) (n : Nat)
    (es : List Entry) : (deliver n es).map f = es.map f := by
  induction es generalizing n with
  | nil => cases n <;> rfl
  | cons e es ih =>
    cases n with
    | zero => rfl
    | succ n =>
      rw [deliver]
      split
      · simp [ih]
      · simp [ih, hf]

theorem runFirst.deliver {es : List Entry} (h : runFirst es) (n : Nat) : runFirst (deliver n es) := by
  induction es generalizing n with
  | nil => cases n <;> trivial
  | cons e es ih =>
    cases n with
    | zero => exact h
    | succ n =>
      simp only [runFirst] at h
      rw [Machine.deliver]
      split at h
      · next he => simp only [he, if_true, runFirst]; exact ih h _
      · next he =>
        simp only [he, Bool.false_eq_true, if_false, runFirst, if_true]
        exact ih (runFirst_of_undelivered h) n

theorem acknowledge_map {α : Type} (f : Entry → α) (hf : ∀ e b, f { e with delivered := b } = f e) (q : NoticeQueue)
    (ack : Word16) (redeliver : Bool) :
    ((q.acknowledge ack redeliver).map f) = (q.entries.map f).drop (ackedEntries ack q.entries).length := by
  unfold NoticeQueue.acknowledge
  split
  · simp [Function.comp_def, hf]
  · simp

theorem NoticeQueue.DeliveredFirst.acknowledge {q : NoticeQueue} (h : q.DeliveredFirst) (ack : Word16)
    (redeliver : Bool) : runFirst (q.acknowledge ack redeliver) := by
  rw [NoticeQueue.deliveredFirst_iff] at h
  unfold NoticeQueue.acknowledge
  split
  · refine runFirst_of_undelivered fun e he => ?_
    obtain ⟨d, -, rfl⟩ := List.mem_map.mp he
    rfl
  · exact h.drop _

/-- The queue after FETCH keeps the law (R131, R133, R136, R137). -/
theorem NoticeQueue.Law.fetch {q : NoticeQueue} (h : q.Law) (n : Nat) (ack : Word16) (redeliver : Bool) :
    ({ q with entries := deliver n (q.acknowledge ack redeliver) } : NoticeQueue).Law := by
  have hk := deliver_map (fun e => e.notice.key) (fun _ _ => rfl) n (q.acknowledge ack redeliver)
  have hs := deliver_map (fun e => e.seq) (fun _ _ => rfl) n (q.acknowledge ack redeliver)
  rw [acknowledge_map _ (fun _ _ => rfl)] at hk hs
  have hmem : ∀ e ∈ deliver n (q.acknowledge ack redeliver), ∃ d ∈ q.entries, d.seq = e.seq := by
    intro e he
    have : e.seq ∈ (deliver n (q.acknowledge ack redeliver)).map fun e => e.seq := List.mem_map_of_mem he
    rw [hs] at this
    exact List.mem_map.mp (List.drop_subset _ _ this)
  refine ⟨?_, ?_, ?_, h.next, ?_⟩
  · show (List.map _ (deliver n _)).Nodup
    rw [hk]; exact h.keys.sublist (List.drop_sublist _ _)
  · show (List.map _ (deliver n _)).Nodup
    rw [hs]; exact h.seqs.sublist (List.drop_sublist _ _)
  · intro e he; obtain ⟨d, hd, e'⟩ := hmem e he; rw [← e']; exact h.nonzero d hd
  · intro e he; obtain ⟨d, hd, e'⟩ := hmem e he; rw [← e']; exact h.fresh d hd

/-- The queue after FETCH keeps its delivered run at the head (R134). -/
theorem NoticeQueue.DeliveredFirst.fetch {q : NoticeQueue} (h : q.DeliveredFirst) (n : Nat) (ack : Word16)
    (redeliver : Bool) :
    ({ q with entries := deliver n (q.acknowledge ack redeliver) } : NoticeQueue).DeliveredFirst := by
  rw [NoticeQueue.deliveredFirst_iff]
  exact (h.acknowledge ack redeliver).deliver n

end Sys2Proof.Machine
end

