-- ==== Sys2Proof/Laws/Sessions.lean ====
section
/-! SUPPORT. What the end of a session does (R52, R111, R120), said once (`State.SessionEnd`), and what the taking of
good-frame reports does to a session (R103, R112, R113). -/

namespace Sys2Proof.Machine

/-! ## The end of a session -/

/-- What the end of the session of port `p` does, which leaves its record in `st` (R52, R111, R120). -/
structure State.SessionEnd (s t : State) (p : Port) (st : SessionState) : Prop where
  session : t.session p = { incarnation := s.incarnation p, state := st }
  sessions : ∀ q, q ≠ p → t.session q = s.session q
  noClaims : ∀ c ∈ t.claims, c.owner ≠ p
  claims : (t.claims.map Claim.key).Sublist (s.claims.map Claim.key)
  freed : ∀ h, t.slot p h = .free
  slots : ∀ q, q ≠ p → ∀ h, t.slot q h = s.slot q h ∨ (s.slot q h).isOpen = true
  queue : t.queue p = { s.queue p with entries := [] }
  closed : ∀ q, q ≠ p → s.isOpen q = false → t.queue q = s.queue q
  grows : ∀ q, q ≠ p → (s.queue q).Grows (t.queue q)
  port : t.port p = { s.port p with cache := none, inbound := [] }
  ports : ∀ q, q ≠ p → t.port q = s.port q
  defined : ∀ x, (t.resource x).isSome = (s.resource x).isSome
  supervision : s.SameSupervision t
  inputs : s.SameInputs t
  served : t.servedCT = s.servedCT ∧ t.servedSC = s.servedSC ∧ t.servedNS = s.servedNS ∧ t.servedSV = s.servedSV
  ackEvents : t.ackEvents = s.ackEvents
  liveReports : t.liveReports = s.liveReports
  drive : s.DriveLaw → t.DriveLaw
  exclusive : s.OneEach → s.ExclusiveLaw → t.ExclusiveLaw

theorem State.endOfEvent_eq (s : State) : s.endOfEvent = s ∨ s.endOfEvent = { s with drainReports := s.drainReports ++ [true] } := by
  unfold State.endOfEvent; split
  · exact .inr rfl
  · exact .inl rfl

theorem State.endOfEvent_drainReports (s : State) :
    s.endOfEvent.drainReports =
      if s.mode = .quiesce ∧ s.freeCount = Config.poolSize then s.drainReports ++ [true] else s.drainReports := by
  unfold State.endOfEvent; split <;> rfl

section
variable (s : State)
@[simp] theorem State.endOfEvent_claims : s.endOfEvent.claims = s.claims := by unfold State.endOfEvent; split <;> rfl
@[simp] theorem State.endOfEvent_slots : s.endOfEvent.slots = s.slots := by unfold State.endOfEvent; split <;> rfl
@[simp] theorem State.endOfEvent_resources : s.endOfEvent.resources = s.resources := by unfold State.endOfEvent; split <;> rfl
@[simp] theorem State.endOfEvent_sessions : s.endOfEvent.sessions = s.sessions := by unfold State.endOfEvent; split <;> rfl
@[simp] theorem State.endOfEvent_queues : s.endOfEvent.queues = s.queues := by unfold State.endOfEvent; split <;> rfl
@[simp] theorem State.endOfEvent_ports : s.endOfEvent.ports = s.ports := by unfold State.endOfEvent; split <;> rfl
@[simp] theorem State.endOfEvent_mode : s.endOfEvent.mode = s.mode := by unfold State.endOfEvent; split <;> rfl
@[simp] theorem State.endOfEvent_supervisor : s.endOfEvent.supervisor = s.supervisor := by unfold State.endOfEvent; split <;> rfl
@[simp] theorem State.endOfEvent_threshold : s.endOfEvent.threshold = s.threshold := by unfold State.endOfEvent; split <;> rfl
@[simp] theorem State.endOfEvent_recovery : s.endOfEvent.recovery = s.recovery := by unfold State.endOfEvent; split <;> rfl
@[simp] theorem State.endOfEvent_filterTime : s.endOfEvent.filterTime = s.filterTime := by unfold State.endOfEvent; split <;> rfl
@[simp] theorem State.endOfEvent_now : s.endOfEvent.now = s.now := by unfold State.endOfEvent; split <;> rfl
@[simp] theorem State.endOfEvent_pending : s.endOfEvent.pending = s.pending := by unfold State.endOfEvent; split <;> rfl
@[simp] theorem State.endOfEvent_confirmInputs : s.endOfEvent.confirmInputs = s.confirmInputs := by unfold State.endOfEvent; split <;> rfl
@[simp] theorem State.endOfEvent_severInputs : s.endOfEvent.severInputs = s.severInputs := by unfold State.endOfEvent; split <;> rfl
@[simp] theorem State.endOfEvent_lineReports : s.endOfEvent.lineReports = s.lineReports := by unfold State.endOfEvent; split <;> rfl
@[simp] theorem State.endOfEvent_ackEvents : s.endOfEvent.ackEvents = s.ackEvents := by unfold State.endOfEvent; split <;> rfl
@[simp] theorem State.endOfEvent_liveReports : s.endOfEvent.liveReports = s.liveReports := by unfold State.endOfEvent; split <;> rfl
@[simp] theorem State.endOfEvent_servedCT : s.endOfEvent.servedCT = s.servedCT := by unfold State.endOfEvent; split <;> rfl
@[simp] theorem State.endOfEvent_servedSC : s.endOfEvent.servedSC = s.servedSC := by unfold State.endOfEvent; split <;> rfl
@[simp] theorem State.endOfEvent_servedNS : s.endOfEvent.servedNS = s.servedNS := by unfold State.endOfEvent; split <;> rfl
@[simp] theorem State.endOfEvent_servedSV : s.endOfEvent.servedSV = s.servedSV := by unfold State.endOfEvent; split <;> rfl
@[simp] theorem State.endOfEvent_session (q : Port) : s.endOfEvent.session q = s.session q := by simp [State.session]
@[simp] theorem State.endOfEvent_queue (q : Port) : s.endOfEvent.queue q = s.queue q := by simp [State.queue]
@[simp] theorem State.endOfEvent_port (q : Port) : s.endOfEvent.port q = s.port q := by simp [State.port]
@[simp] theorem State.endOfEvent_slot (q : Port) (h : Handle) : s.endOfEvent.slot q h = s.slot q h := by simp [State.slot]
@[simp] theorem State.endOfEvent_resource (x : ResNo) : s.endOfEvent.resource x = s.resource x := by simp [State.resource]
@[simp] theorem State.endOfEvent_isOpen (q : Port) : s.endOfEvent.isOpen q = s.isOpen q := by simp [State.isOpen]
@[simp] theorem State.endOfEvent_isLive (q : Port) : s.endOfEvent.isLive q = s.isLive q := by simp [State.isLive]
@[simp] theorem State.endOfEvent_incarnation (q : Port) : s.endOfEvent.incarnation q = s.incarnation q := by simp [State.incarnation]
@[simp] theorem State.endOfEvent_kindOf (x : ResNo) : s.endOfEvent.kindOf x = s.kindOf x := by simp [State.kindOf]
@[simp] theorem State.endOfEvent_assigned (x : ResNo) : s.endOfEvent.assigned x = s.assigned x := by simp [State.assigned]
@[simp] theorem State.endOfEvent_waitQueue (x : ResNo) : s.endOfEvent.waitQueue x = s.waitQueue x := by simp [State.waitQueue]
@[simp] theorem State.endOfEvent_freeCount : s.endOfEvent.freeCount = s.freeCount := by simp [State.freeCount]
end

@[simp] theorem State.setSessionState_session (s : State) (p q : Port) (st : SessionState) :
    (s.setSessionState p st).session q = if p = q then { s.session p with state := st } else s.session q := by
  simp [State.setSessionState]

theorem State.isOpen_setSessionState (s : State) (p q : Port) (st : SessionState) :
    (s.setSessionState p st).isOpen q = if p = q then st.isOpen else s.isOpen q := by
  simp only [State.isOpen, State.setSessionState_session]; split <;> rfl

/-- The end of a session that is left closed does what R120 says. -/
theorem State.endSession_spec (s : State) (p : Port) (st : SessionState) (hst : st.isOpen = false) :
    s.SessionEnd (s.endSession p st) p st := by
  unfold State.endSession
  simp only
  generalize hc : s.setSessionState p st = closed
  have hclaims : closed.claims = s.claims := by rw [← hc]; rfl
  have hslots : ∀ q h, closed.slot q h = s.slot q h := by intro q h; rw [← hc]; rfl
  have hqueue : ∀ q, closed.queue q = s.queue q := by intro q; rw [← hc]; rfl
  have hport : ∀ q, closed.port q = s.port q := by intro q; rw [← hc]; rfl
  have hres : ∀ x, closed.resource x = s.resource x := by intro x; rw [← hc]; rfl
  have hsess : ∀ q, closed.session q = if p = q then { s.session p with state := st } else s.session q := by
    intro q; rw [← hc]; exact State.setSessionState_session s p q st
  have hopen : closed.isOpen p = false := by rw [← hc, State.isOpen_setSessionState]; simpa using hst
  have e1 := State.removeClaims_tableEvent closed (Claim.ofPort p)
  have c1 := State.removeClaims_claims closed (Claim.ofPort p)
  generalize closed.losers (Claim.ofPort p) = xs
  generalize closed.removeClaims (Claim.ofPort p) = u at e1 c1
  have hopen1 : u.isOpen p = false := (e1.outside.isOpen p).trans hopen
  have e2 := State.evaluate_tableEvent (u.freeSlots p) xs
  generalize (u.freeSlots p).evaluate xs = v at e2
  have hown : ∀ c ∈ v.claims, c.owner ≠ p := by
    intro c hc' ho
    obtain ⟨d, hd, h1, -⟩ := e2.claim_from c hc'
    have hd' : d ∈ u.claims := hd
    rw [c1, List.mem_filter] at hd'
    simp [Claim.ofPort, h1, ho] at hd'
  have hfree : ∀ h, v.slot p h = .free := by
    intro h
    rcases e2.slots p h with h' | h'
    · rw [h']; simp
    · simp [Slot.isOpen] at h'
  have ho : closed.SameOutsideClaimTable v :=
    e1.outside.trans ((show u.SameOutsideClaimTable (u.freeSlots p) by constructor <;> rfl).trans e2.outside)
  have hqp : v.queue p = s.queue p := by
    rw [e2.closed p (by simpa using hopen1)]
    show u.queue p = _
    rw [e1.closed p hopen, hqueue]
  have hqq : ∀ q, closed.isOpen q = false → v.queue q = s.queue q := by
    intro q hq
    rw [e2.closed q (by simpa using (e1.outside.isOpen q).trans hq)]
    show u.queue q = _
    rw [e1.closed q hq, hqueue]
  have hgr : ∀ q, (s.queue q).Grows (v.queue q) := by
    intro q
    have := (e1.grows q).trans (e2.grows q)
    rwa [hqueue] at this
  have hst' : s.SameSupervision closed ∧ s.SameInputs closed ∧ (closed.servedCT = s.servedCT ∧
      closed.servedSC = s.servedSC ∧ closed.servedNS = s.servedNS ∧ closed.servedSV = s.servedSV) ∧
      closed.ackEvents = s.ackEvents ∧ closed.liveReports = s.liveReports := by
    rw [← hc]; refine ⟨?_, ?_, ⟨rfl, rfl, rfl, rfl⟩, rfl, rfl⟩ <;> constructor <;> rfl
  obtain ⟨hsup, hin, hserved, hack, hlive⟩ := hst'
  have hdrive : s.DriveLaw → v.DriveLaw := by
    intro h
    have : closed.DriveLaw := by intro x k hk; exact h x k (by simpa [State.kindOf, hres] using hk)
    exact e2.drive (e1.drive this)
  have hexc : s.OneEach → s.ExclusiveLaw → v.ExclusiveLaw := by
    intro h1 h2
    have h1' : closed.OneEach := by unfold State.OneEach; rw [hclaims]; exact h1
    have h2' : closed.ExclusiveLaw := by rw [State.exclusiveLaw_iff] at *; rw [hclaims]; exact h2
    exact e2.exclusive (e1.oneEach h1') (e1.exclusive h1' h2')
  have hcl : (v.claims.map Claim.key).Sublist (s.claims.map Claim.key) := by
    rw [← hclaims]; exact e2.claims.trans e1.claims
  have hsl : ∀ q, q ≠ p → ∀ h, v.slot q h = s.slot q h ∨ (s.slot q h).isOpen = true := by
    intro q hq h
    have hne : ¬ p = q := fun e => hq e.symm
    have h2 := e2.slots q h
    simp only [State.slot_freeSlots, hne, if_false] at h2
    rcases e1.slots q h with h1 | h1
    · rw [hslots] at h1
      rw [h1] at h2; exact h2
    · rw [hslots] at h1; exact .inr h1
  have hdef : ∀ x, (v.resource x).isSome = (s.resource x).isSome := by
    intro x; rw [e2.defined x, ← hres]; exact e1.defined x
  have key : s.SessionEnd ((v.clearQueue p).dropFrames p) p st := by
    constructor
    · show v.session p = _
      rw [ho.session, hsess]; simp [State.incarnation]
    · intro q hq
      show v.session q = _
      rw [ho.session, hsess]; simp [Ne.symm hq]
    · exact hown
    · exact hcl
    · exact hfree
    · exact hsl
    · simp [State.clearQueue, State.dropFrames, hqp]
    · intro q hq hq'
      simp only [State.clearQueue, State.dropFrames, State.queue_setPort, State.queue_setQueue, Ne.symm hq, if_false]
      refine hqq q ?_
      rw [State.isOpen, hsess]
      simpa [Ne.symm hq, State.isOpen] using hq'
    · intro q hq
      simp only [State.clearQueue, State.dropFrames, State.queue_setPort, State.queue_setQueue, Ne.symm hq, if_false]
      exact hgr q
    · simp [State.clearQueue, State.dropFrames, ho.port, hport]
    · intro q hq
      simp [State.clearQueue, State.dropFrames, ho.port, hport, Ne.symm hq]
    · exact hdef
    · exact ⟨ho.mode.trans hsup.mode, ho.supervisor.trans hsup.supervisor, ho.threshold.trans hsup.threshold,
        ho.recovery.trans hsup.recovery, ho.filterTime.trans hsup.filterTime⟩
    · exact ⟨ho.confirmInputs.trans hin.confirmInputs, ho.severInputs.trans hin.severInputs, ho.now.trans hin.now,
        ho.pending.trans hin.pending⟩
    · exact ⟨ho.servedCT.trans hserved.1, ho.servedSC.trans hserved.2.1, ho.servedNS.trans hserved.2.2.1,
        ho.servedSV.trans hserved.2.2.2⟩
    · exact ho.ackEvents.trans hack
    · exact ho.liveReports.trans hlive
    · exact hdrive
    · exact hexc
  generalize (v.clearQueue p).dropFrames p = w at key
  rcases State.endOfEvent_eq w with e | e
  · rw [e]; exact key
  · rw [e]
    exact ⟨key.session, key.sessions, key.noClaims, key.claims, key.freed, key.slots, key.queue, key.closed, key.grows,
      key.port, key.ports, key.defined,
      ⟨key.supervision.mode, key.supervision.supervisor, key.supervision.threshold, key.supervision.recovery,
        key.supervision.filterTime⟩,
      ⟨key.inputs.confirmInputs, key.inputs.severInputs, key.inputs.now, key.inputs.pending⟩,
      key.served, key.ackEvents, key.liveReports, key.drive, key.exclusive⟩

theorem SessionState.opened_isSome (st : SessionState) : st.opened.isSome = st.isOpen := by cases st <;> rfl

/-- A sever of an open session (R120). -/
theorem State.severPort_spec (s : State) (p : Port) (reason : SeverReason) (o : OpenSession)
    (ho : (s.session p).state.opened = some o) :
    s.SessionEnd (s.severPort p reason) p (.severed (s.severReport p o reason)) := by
  unfold State.severPort
  rw [ho]
  exact State.endSession_spec s p _ rfl

/-- A sever cause that finds no open session does nothing (R119). -/
theorem State.severPort_closed (s : State) (p : Port) (reason : SeverReason) (h : s.isOpen p = false) :
    s.severPort p reason = s := by
  unfold State.severPort
  have : (s.session p).state.opened = none := by
    have h1 := SessionState.opened_isSome (s.session p).state
    rw [show (s.session p).state.isOpen = false from h] at h1
    exact Option.not_isSome_iff_eq_none.mp (by simp [h1])
  rw [this]

/-! ## Frame reports -/

/-- What the taking of good-frame reports of port `p` may do: restart its window or set its flag (R112, R113). -/
structure State.Seen (s t : State) (p : Port) : Prop where
  table : s.SameClaimTable t
  supervision : s.SameSupervision t
  inputs : s.SameInputs t
  sessions : ∀ q, q ≠ p → t.session q = s.session q
  queues : t.queues = s.queues
  ports : t.ports = s.ports
  served : t.servedCT = s.servedCT ∧ t.servedSC = s.servedSC ∧ t.servedNS = s.servedNS ∧ t.servedSV = s.servedSV
  ackEvents : t.ackEvents = s.ackEvents
  liveReports : t.liveReports = s.liveReports
  drainReports : t.drainReports = s.drainReports
  incarnation : t.incarnation p = s.incarnation p
  live : ∀ o, (s.session p).state = .live o → ∃ o', (t.session p).state = .live o' ∧ o'.clientId = o.clientId ∧
    o'.keepalive = o.keepalive
  lapsed : ∀ o l, (s.session p).state = .lapsed o l → ∃ l', (t.session p).state = .lapsed o l' ∧
    l'.missCount = l.missCount ∧ l'.streak = l.streak
  closed : s.isOpen p = false → t.session p = s.session p

theorem State.Seen.refl (s : State) (p : Port) : s.Seen s p := by
  refine ⟨?_, ?_, ?_, fun _ _ => rfl, rfl, rfl, ⟨rfl, rfl, rfl, rfl⟩, rfl, rfl, rfl, rfl, fun o h => ⟨o, h, rfl, rfl⟩,
    fun o l h => ⟨l, h, rfl, rfl⟩, fun _ => rfl⟩ <;> constructor <;> rfl

theorem State.seeFrame_seen (s : State) (p : Port) (inc : Byte) : s.Seen (s.seeFrame p inc) p := by
  unfold State.seeFrame
  split
  · split
    · next o ho =>
      refine ⟨?_, ?_, ?_, fun q hq => by simp [Ne.symm hq], rfl, rfl, ⟨rfl, rfl, rfl, rfl⟩, rfl, rfl, rfl,
        by simp [State.incarnation], fun o' h => ?_, fun o' l h => ?_, fun hc => ?_⟩
      · constructor <;> rfl
      · constructor <;> rfl
      · constructor <;> rfl
      · rw [ho] at h; cases h
        exact ⟨s.restartWindow o, by simp, rfl, rfl⟩
      · rw [ho] at h; cases h
      · simp [State.isOpen, ho, SessionState.isOpen] at hc
    · next o l ho =>
      refine ⟨?_, ?_, ?_, fun q hq => by simp [Ne.symm hq], rfl, rfl, ⟨rfl, rfl, rfl, rfl⟩, rfl, rfl, rfl,
        by simp [State.incarnation], fun o' h => ?_, fun o' l' h => ?_, fun hc => ?_⟩
      · constructor <;> rfl
      · constructor <;> rfl
      · constructor <;> rfl
      · rw [ho] at h; cases h
      · rw [ho] at h; cases h
        exact ⟨{ l with frameSeen := true }, by simp, rfl, rfl⟩
      · simp [State.isOpen, ho, SessionState.isOpen] at hc
    · exact .refl s p
  · exact .refl s p

theorem State.Seen.trans {s t u : State} {p : Port} (a : s.Seen t p) (b : t.Seen u p) : s.Seen u p := by
  refine ⟨⟨b.table.claims.trans a.table.claims, b.table.slots.trans a.table.slots,
      b.table.resources.trans a.table.resources, b.table.lineReports.trans a.table.lineReports⟩,
    ⟨b.supervision.mode.trans a.supervision.mode, b.supervision.supervisor.trans a.supervision.supervisor,
      b.supervision.threshold.trans a.supervision.threshold, b.supervision.recovery.trans a.supervision.recovery,
      b.supervision.filterTime.trans a.supervision.filterTime⟩,
    ⟨b.inputs.confirmInputs.trans a.inputs.confirmInputs, b.inputs.severInputs.trans a.inputs.severInputs,
      b.inputs.now.trans a.inputs.now, b.inputs.pending.trans a.inputs.pending⟩,
    fun q hq => (b.sessions q hq).trans (a.sessions q hq), b.queues.trans a.queues, b.ports.trans a.ports,
    ⟨b.served.1.trans a.served.1, b.served.2.1.trans a.served.2.1, b.served.2.2.1.trans a.served.2.2.1,
      b.served.2.2.2.trans a.served.2.2.2⟩,
    b.ackEvents.trans a.ackEvents, b.liveReports.trans a.liveReports, b.drainReports.trans a.drainReports,
    b.incarnation.trans a.incarnation, fun o h => ?_, fun o l h => ?_, fun h => ?_⟩
  · obtain ⟨o1, h1, h2, h3⟩ := a.live o h
    obtain ⟨o2, h4, h5, h6⟩ := b.live o1 h1
    exact ⟨o2, h4, h5.trans h2, h6.trans h3⟩
  · obtain ⟨l1, h1, h2, h3⟩ := a.lapsed o l h
    obtain ⟨l2, h4, h5, h6⟩ := b.lapsed o l1 h1
    exact ⟨l2, h4, h5.trans h2, h6.trans h3⟩
  · have h1 := a.closed h
    have : t.isOpen p = false := by simpa [State.isOpen, h1] using h
    exact (b.closed this).trans h1

theorem State.Seen.isOpen {s t : State} {p : Port} (a : s.Seen t p) (q : Port) : t.isOpen q = s.isOpen q := by
  by_cases hq : q = p
  · subst hq
    cases h : (s.session q).state with
    | live o => obtain ⟨o', h', -⟩ := a.live o h; simp [State.isOpen, h, h', SessionState.isOpen]
    | lapsed o l => obtain ⟨l', h', -⟩ := a.lapsed o l h; simp [State.isOpen, h, h', SessionState.isOpen]
    | idle => simp [State.isOpen, a.closed (by simp [State.isOpen, h, SessionState.isOpen])]
    | severed r => simp [State.isOpen, a.closed (by simp [State.isOpen, h, SessionState.isOpen])]
  · simp [State.isOpen, a.sessions q hq]

theorem State.Seen.isLive {s t : State} {p : Port} (a : s.Seen t p) (q : Port) : t.isLive q = s.isLive q := by
  by_cases hq : q = p
  · subst hq
    cases h : (s.session q).state with
    | live o => obtain ⟨o', h', -⟩ := a.live o h; simp [State.isLive, h, h', SessionState.isLive]
    | lapsed o l => obtain ⟨l', h', -⟩ := a.lapsed o l h; simp [State.isLive, h, h', SessionState.isLive]
    | idle => simp [State.isLive, a.closed (by simp [State.isOpen, h, SessionState.isOpen])]
    | severed r => simp [State.isLive, a.closed (by simp [State.isOpen, h, SessionState.isOpen])]
  · simp [State.isLive, a.sessions q hq]

theorem State.foldl_seeFrame_seen (p : Port) (rs : List FrameReport) (s : State) :
    s.Seen (rs.foldl (fun s r => s.seeFrame p r.inc) s) p := by
  induction rs generalizing s with
  | nil => exact .refl s p
  | cons r rs ih => exact (State.seeFrame_seen s p r.inc).trans (ih _)

end Sys2Proof.Machine
end

