-- ==== Sys2Proof/Laws/Transmitter.lean ====
section
/-! SUPPORT. What the placing of a reply leaves of a Port Interface, and when its characters are on the line (R160, R171,
R172). -/

namespace Sys2Proof.Machine

section
variable (q : PortInterface) (now : Time) (r : Reply)

@[simp] theorem PortInterface.addReply_replies : (q.addReply now r).replies = q.replies ++ [r] := rfl
@[simp] theorem PortInterface.addReply_rate : (q.addReply now r).rate = q.rate := rfl
@[simp] theorem PortInterface.addReply_pendingRate : (q.addReply now r).pendingRate = q.pendingRate := rfl
@[simp] theorem PortInterface.addReply_rx : (q.addReply now r).rx = q.rx := rfl
@[simp] theorem PortInterface.addReply_silence : (q.addReply now r).silence = q.silence := rfl
@[simp] theorem PortInterface.addReply_character : (q.addReply now r).character = q.character := rfl
@[simp] theorem PortInterface.addReply_line : (q.addReply now r).line = q.line := rfl
@[simp] theorem PortInterface.addReply_goodFrames : (q.addReply now r).goodFrames = q.goodFrames := rfl
@[simp] theorem PortInterface.addReply_reports : (q.addReply now r).reports = q.reports := rfl
@[simp] theorem PortInterface.addReply_inbound : (q.addReply now r).inbound = q.inbound := rfl
@[simp] theorem PortInterface.addReply_checkStage : (q.addReply now r).checkStage = q.checkStage := rfl
@[simp] theorem PortInterface.addReply_lastChar : (q.addReply now r).lastChar = q.lastChar := rfl
@[simp] theorem PortInterface.addReply_cache : (q.addReply now r).cache = q.cache := rfl
@[simp] theorem PortInterface.addReply_frameCount : (q.addReply now r).frameCount = q.frameCount := rfl

/-- A reply placed behind another leaves the transmitter as it is (R172). -/
theorem PortInterface.addReply_begins_of_some {m : Moment} (h : q.begins = some m) :
    (q.addReply now r).begins = some m := by simp [PortInterface.addReply, h]

/-- The only reply of a buffer begins as soon as the line is free (R172). -/
theorem PortInterface.addReply_begins_of_none (h : q.begins = none) :
    (q.addReply now r).begins = some (q.lineFree (momentOf now)) := by simp [PortInterface.addReply, h]

end

/-! ## Moments -/

/-- A unit begins at the moment its time stands at. -/
@[simp] theorem unitOf_momentOf (t : Nat) : unitOf (momentOf t) = t := by
  show (t * 1152 + 1151) / 1152 = t
  omega

/-- The unit of a moment is the first that is not before it. -/
theorem unitOf_le_iff (m t : Nat) : unitOf m ≤ t ↔ m ≤ momentOf t := by
  show (m + 1151) / 1152 ≤ t ↔ m ≤ t * 1152
  omega

/-- A reply leaves no earlier than its last stop bit ends and no earlier than the event's time (R172). -/
theorem PortInterface.unitOf_leavesAt (q : PortInterface) (now : Nat) :
    max now (unitOf (q.leavesAt now)) = max now ((q.replyEnds.map unitOf).getD 0) := by
  unfold PortInterface.leavesAt
  cases q.replyEnds with
  | none => simp
  | some e =>
    by_cases h : now ≤ unitOf e
    · simp [h]
    · have : unitOf e ≤ now := Nat.le_of_not_le h
      simp [h, Nat.max_eq_left this]

theorem Rate.bitMoments_pos (r : Rate) : 0 < r.bitMoments := by cases r <;> decide

/-- Which piece of length `d` a point lies in. -/
theorem piece_of_between {a d n m : Nat} (h1 : a + n * d ≤ m) (h2 : m < a + (n + 1) * d) : (m - a) / d = n :=
  Nat.div_eq_of_lt_le (Nat.le_sub_of_add_le (Nat.add_comm a _ ▸ h1)) (Nat.sub_lt_left_of_lt_add
    (Nat.le_trans (Nat.le_add_right _ _) h1) h2)

/-! ## The level of the line -/

/-- A character lasts one start bit at space, eight data bits and one stop bit at mark (R160). -/
theorem TxChar.isMark_bit (c : TxChar) {n m : Nat} (h1 : c.began + n * c.rate.bitMoments ≤ m)
    (h2 : m < c.began + (n + 1) * c.rate.bitMoments) :
    c.isMark m = match n with
      | 0 => false
      | k + 1 => if k < 8 then c.value.getLsbD k else true := by
  rw [TxChar.isMark, piece_of_between h1 h2]
  cases n <;> rfl

/-- The characters of the oldest reply follow one another without a pause (R172). -/
theorem PortInterface.replyChar_eq (q : PortInterface) {b i m : Nat} {r : Reply} {rest : List Reply}
    (hb : q.begins = some b) (hr : q.replies = r :: rest)
    (h1 : b + i * q.rate.charMoments ≤ m) (h2 : m < b + (i + 1) * q.rate.charMoments) :
    q.replyChar m =
      r.bytes[i]?.map fun v => { value := v, rate := q.rate, began := b + i * q.rate.charMoments } := by
  have hm : b ≤ m := Nat.le_trans (Nat.le_add_right _ _) h1
  simp only [PortInterface.replyChar, hb, hr, hm, if_true, piece_of_between h1 h2]

/-- No character is sent while the reply buffer is empty and no last character is on the line (R160). -/
theorem PortInterface.txMark_of_idle (q : PortInterface) (m : Nat) (hr : q.replies = [])
    (hl : ∀ c, q.lastChar = some c → c.ends ≤ m) : q.txMark m = true := by
  have h1 : q.replyChar m = none := by
    unfold PortInterface.replyChar
    rw [hr]
    cases q.begins <;> rfl
  have h2 : (q.lastChar.filter fun c => decide (c.began ≤ m ∧ m < c.ends)) = none := by
    cases hc : q.lastChar with
    | none => rfl
    | some c =>
      have := Nat.not_lt.mpr (hl c hc)
      simp [Option.filter, this]
  simp only [PortInterface.txMark, PortInterface.onLine, h2, h1]

end Sys2Proof.Machine
end

