-- ==== Sys2Proof/Laws/Serve.lean ====
section
/-! SUPPORT. The taking of a request, its checks and its answer (R25, R26, R104, R170, R171, R191). -/

namespace Sys2Proof.Machine

/-! ## Taking -/

@[simp] theorem State.setServed_sessions (s : State) (o : Owner) (p : Port) : (s.setServed o p).sessions = s.sessions := by
  cases o <;> rfl
@[simp] theorem State.setServed_ports (s : State) (o : Owner) (p : Port) : (s.setServed o p).ports = s.ports := by
  cases o <;> rfl

@[simp] theorem State.setServed_claims (s : State) (o : Owner) (p : Port) : (s.setServed o p).claims = s.claims := by
  cases o <;> rfl
@[simp] theorem State.setServed_slots (s : State) (o : Owner) (p : Port) : (s.setServed o p).slots = s.slots := by
  cases o <;> rfl
@[simp] theorem State.setServed_resources (s : State) (o : Owner) (p : Port) : (s.setServed o p).resources = s.resources := by
  cases o <;> rfl
@[simp] theorem State.setServed_queues (s : State) (o : Owner) (p : Port) : (s.setServed o p).queues = s.queues := by
  cases o <;> rfl
@[simp] theorem State.setServed_mode (s : State) (o : Owner) (p : Port) : (s.setServed o p).mode = s.mode := by
  cases o <;> rfl
@[simp] theorem State.setServed_supervisor (s : State) (o : Owner) (p : Port) : (s.setServed o p).supervisor = s.supervisor := by
  cases o <;> rfl
@[simp] theorem State.setServed_threshold (s : State) (o : Owner) (p : Port) : (s.setServed o p).threshold = s.threshold := by
  cases o <;> rfl
@[simp] theorem State.setServed_recovery (s : State) (o : Owner) (p : Port) : (s.setServed o p).recovery = s.recovery := by
  cases o <;> rfl
@[simp] theorem State.setServed_filterTime (s : State) (o : Owner) (p : Port) : (s.setServed o p).filterTime = s.filterTime := by
  cases o <;> rfl
@[simp] theorem State.setServed_confirmInputs (s : State) (o : Owner) (p : Port) : (s.setServed o p).confirmInputs = s.confirmInputs := by
  cases o <;> rfl
@[simp] theorem State.setServed_severInputs (s : State) (o : Owner) (p : Port) : (s.setServed o p).severInputs = s.severInputs := by
  cases o <;> rfl
@[simp] theorem State.setServed_now (s : State) (o : Owner) (p : Port) : (s.setServed o p).now = s.now := by
  cases o <;> rfl
@[simp] theorem State.setServed_pending (s : State) (o : Owner) (p : Port) : (s.setServed o p).pending = s.pending := by
  cases o <;> rfl
@[simp] theorem State.setServed_lineReports (s : State) (o : Owner) (p : Port) : (s.setServed o p).lineReports = s.lineReports := by
  cases o <;> rfl
@[simp] theorem State.setServed_ackEvents (s : State) (o : Owner) (p : Port) : (s.setServed o p).ackEvents = s.ackEvents := by
  cases o <;> rfl
@[simp] theorem State.setServed_liveReports (s : State) (o : Owner) (p : Port) : (s.setServed o p).liveReports = s.liveReports := by
  cases o <;> rfl
@[simp] theorem State.setServed_drainReports (s : State) (o : Owner) (p : Port) : (s.setServed o p).drainReports = s.drainReports := by
  cases o <;> rfl

@[simp] theorem State.setServed_session (s : State) (o : Owner) (p q : Port) :
    (s.setServed o p).session q = s.session q := by simp [State.session]
@[simp] theorem State.setServed_port (s : State) (o : Owner) (p q : Port) : (s.setServed o p).port q = s.port q := by
  simp [State.port]

/-- The Session Controller's taking of the reports before a request (R103, R124). -/
theorem State.taking_seen (s : State) (k : RequestKind) (p : Port) (f : Frame) :
    ∃ u, s.Seen u p ∧ s.taking k p f =
      (u.setPort p { u.port p with reports := (s.port p).reports.filter fun r => decide (f.stamp < r.stamp) }).setServed
        k.owner p :=
  ⟨_, State.foldl_seeFrame_seen p _ s, rfl⟩

section
variable (s : State) (k : RequestKind) (p : Port) (f : Frame)

@[simp] theorem State.taking_claims : (s.taking k p f).claims = s.claims := by
  obtain ⟨u, a, e⟩ := s.taking_seen k p f
  rw [e]; simpa using a.table.claims
@[simp] theorem State.taking_slots : (s.taking k p f).slots = s.slots := by
  obtain ⟨u, a, e⟩ := s.taking_seen k p f
  rw [e]; simpa using a.table.slots
@[simp] theorem State.taking_resources : (s.taking k p f).resources = s.resources := by
  obtain ⟨u, a, e⟩ := s.taking_seen k p f
  rw [e]; simpa using a.table.resources
@[simp] theorem State.taking_queues : (s.taking k p f).queues = s.queues := by
  obtain ⟨u, a, e⟩ := s.taking_seen k p f
  rw [e]; simpa using a.queues
@[simp] theorem State.taking_mode : (s.taking k p f).mode = s.mode := by
  obtain ⟨u, a, e⟩ := s.taking_seen k p f
  rw [e]; simpa using a.supervision.mode
@[simp] theorem State.taking_supervisor : (s.taking k p f).supervisor = s.supervisor := by
  obtain ⟨u, a, e⟩ := s.taking_seen k p f
  rw [e]; simpa using a.supervision.supervisor
@[simp] theorem State.taking_threshold : (s.taking k p f).threshold = s.threshold := by
  obtain ⟨u, a, e⟩ := s.taking_seen k p f
  rw [e]; simpa using a.supervision.threshold
@[simp] theorem State.taking_recovery : (s.taking k p f).recovery = s.recovery := by
  obtain ⟨u, a, e⟩ := s.taking_seen k p f
  rw [e]; simpa using a.supervision.recovery
@[simp] theorem State.taking_filterTime : (s.taking k p f).filterTime = s.filterTime := by
  obtain ⟨u, a, e⟩ := s.taking_seen k p f
  rw [e]; simpa using a.supervision.filterTime
@[simp] theorem State.taking_confirmInputs : (s.taking k p f).confirmInputs = s.confirmInputs := by
  obtain ⟨u, a, e⟩ := s.taking_seen k p f
  rw [e]; simpa using a.inputs.confirmInputs
@[simp] theorem State.taking_severInputs : (s.taking k p f).severInputs = s.severInputs := by
  obtain ⟨u, a, e⟩ := s.taking_seen k p f
  rw [e]; simpa using a.inputs.severInputs
@[simp] theorem State.taking_now : (s.taking k p f).now = s.now := by
  obtain ⟨u, a, e⟩ := s.taking_seen k p f
  rw [e]; simpa using a.inputs.now
@[simp] theorem State.taking_pending : (s.taking k p f).pending = s.pending := by
  obtain ⟨u, a, e⟩ := s.taking_seen k p f
  rw [e]; simpa using a.inputs.pending
@[simp] theorem State.taking_lineReports : (s.taking k p f).lineReports = s.lineReports := by
  obtain ⟨u, a, e⟩ := s.taking_seen k p f
  rw [e]; simpa using a.table.lineReports
@[simp] theorem State.taking_ackEvents : (s.taking k p f).ackEvents = s.ackEvents := by
  obtain ⟨u, a, e⟩ := s.taking_seen k p f
  rw [e]; simpa using a.ackEvents
@[simp] theorem State.taking_liveReports : (s.taking k p f).liveReports = s.liveReports := by
  obtain ⟨u, a, e⟩ := s.taking_seen k p f
  rw [e]; simpa using a.liveReports
@[simp] theorem State.taking_drainReports : (s.taking k p f).drainReports = s.drainReports := by
  obtain ⟨u, a, e⟩ := s.taking_seen k p f
  rw [e]; simpa using a.drainReports

theorem State.taking_session_eq : ∃ u, s.Seen u p ∧ ∀ q, (s.taking k p f).session q = u.session q := by
  obtain ⟨u, a, e⟩ := s.taking_seen k p f
  exact ⟨u, a, fun q => by rw [e]; simp⟩

@[simp] theorem State.taking_isOpen (q : Port) : (s.taking k p f).isOpen q = s.isOpen q := by
  obtain ⟨u, a, e⟩ := s.taking_session_eq k p f
  rw [State.isOpen, e]; exact a.isOpen q

@[simp] theorem State.taking_isLive (q : Port) : (s.taking k p f).isLive q = s.isLive q := by
  obtain ⟨u, a, e⟩ := s.taking_session_eq k p f
  rw [State.isLive, e]; exact a.isLive q

theorem State.taking_session_other (q : Port) (hq : q ≠ p) : (s.taking k p f).session q = s.session q := by
  obtain ⟨u, a, e⟩ := s.taking_session_eq k p f
  rw [e, a.sessions q hq]

theorem State.taking_session_closed (h : s.isOpen p = false) : (s.taking k p f).session p = s.session p := by
  obtain ⟨u, a, e⟩ := s.taking_session_eq k p f
  rw [e, a.closed h]

@[simp] theorem State.taking_incarnation (q : Port) : (s.taking k p f).incarnation q = s.incarnation q := by
  obtain ⟨u, a, e⟩ := s.taking_session_eq k p f
  by_cases hq : q = p
  · subst hq; rw [State.incarnation, e]; exact a.incarnation
  · rw [State.incarnation, e, a.sessions q hq]; rfl

theorem State.taking_port (q : Port) : (s.taking k p f).port q =
    if p = q then { s.port p with reports := (s.port p).reports.filter fun r => decide (f.stamp < r.stamp) }
    else s.port q := by
  obtain ⟨u, a, e⟩ := s.taking_seen k p f
  have : ∀ q, u.port q = s.port q := by intro q; simp [State.port, a.ports]
  rw [e]; simp [this]

@[simp] theorem State.taking_queue (q : Port) : (s.taking k p f).queue q = s.queue q := by simp [State.queue]
@[simp] theorem State.taking_slot (q : Port) (h : Handle) : (s.taking k p f).slot q h = s.slot q h := by
  simp [State.slot]
@[simp] theorem State.taking_resource (x : ResNo) : (s.taking k p f).resource x = s.resource x := by
  simp [State.resource]
@[simp] theorem State.taking_kindOf (x : ResNo) : (s.taking k p f).kindOf x = s.kindOf x := by simp [State.kindOf]
@[simp] theorem State.taking_assigned (x : ResNo) : (s.taking k p f).assigned x = s.assigned x := by
  simp [State.assigned]
@[simp] theorem State.taking_waitQueue (x : ResNo) : (s.taking k p f).waitQueue x = s.waitQueue x := by
  simp [State.waitQueue]
@[simp] theorem State.taking_claimOn (q : Port) (x : ResNo) : (s.taking k p f).claimOn q x = s.claimOn q x := by
  simp [State.claimOn]
@[simp] theorem State.taking_freeCount : (s.taking k p f).freeCount = s.freeCount := by simp [State.freeCount]
@[simp] theorem State.taking_holdingsOf (q : Port) : (s.taking k p f).holdingsOf q = s.holdingsOf q := by
  simp [State.holdingsOf]
@[simp] theorem State.taking_openRequests (q : Port) : (s.taking k p f).openRequests q = s.openRequests q := by
  simp [State.openRequests]
@[simp] theorem State.taking_lineDef (x : ResNo) : (s.taking k p f).lineDef x = s.lineDef x := by simp [State.lineDef]
@[simp] theorem State.taking_graceOf (x : ResNo) : (s.taking k p f).graceOf x = s.graceOf x := by simp [State.graceOf]
end

/-- A request that is offered is taken and answered (R26, R170). -/
theorem State.serve_offered {s : State} {k : RequestKind} {p : Port} {f : Frame} (h : s.Offered k p f)
    (run : Frame → State → Verdict) :
    s.serve k p run = (s.taking k p f).answer k.owner p f (run f (s.taking k p f)) := by
  unfold State.serve
  rw [h.standing]
  simp only [h.kind, h.turn, and_self, if_true]
  rfl

/-- Where nothing is offered, nothing is taken. -/
theorem State.serve_not_offered {s : State} {k : RequestKind} {p : Port} (h : ∀ f, ¬ s.Offered k p f)
    (run : Frame → State → Verdict) : s.serve k p run = s := by
  unfold State.serve
  split
  · rfl
  · next f hf =>
    split
    · next hk => exact absurd ⟨hf, hk.1, hk.2⟩ (h f)
    · rfl

/-- The command of a request kind is the taking of a request of that kind. -/
theorem exec_request (k : RequestKind) (p : Port) (s : State) :
    ∃ run, exec (k.command p) s = .next (s.serve k p run) := by
  cases k <;> exact ⟨_, rfl⟩

/-! ## Checks -/

theorem firstRefusal_none {cs : List (Bool × Status)} : firstRefusal cs = none ↔ ∀ c ∈ cs, c.1 = false := by
  induction cs with
  | nil => simp [firstRefusal]
  | cons c cs ih =>
    obtain ⟨b, st⟩ := c
    cases b <;> simp [firstRefusal, ih]

theorem firstRefusal_append (cs ds : List (Bool × Status)) :
    firstRefusal (cs ++ ds) = (firstRefusal cs).or (firstRefusal ds) := by
  induction cs with
  | nil => rfl
  | cons c cs ih =>
    obtain ⟨b, st⟩ := c
    cases b <;> simp [firstRefusal, ih]

theorem firstRefusal_mem {cs : List (Bool × Status)} {st : Status} (h : firstRefusal cs = some st) :
    (true, st) ∈ cs := by
  induction cs with
  | nil => cases h
  | cons c cs ih =>
    obtain ⟨b, st'⟩ := c
    cases b
    · exact List.mem_cons_of_mem _ (ih (by simpa [firstRefusal] using h))
    · simp only [firstRefusal, if_true, Option.some.injEq] at h
      rw [h]; exact List.mem_cons_self

theorem Verdict.checked_none {cs : List (Bool × Status)} {go : Verdict} (h : firstRefusal cs = none) :
    Verdict.checked cs go = go := by
  unfold Verdict.checked; rw [h]

theorem Verdict.checked_some {cs : List (Bool × Status)} {go : Verdict} {st : Status} (h : firstRefusal cs = some st) :
    Verdict.checked cs go = .refused st := by
  unfold Verdict.checked; rw [h]

/-- The session check is passed by an open session whose incarnation the request carries (R104). -/
theorem State.sessionChecks_open {s : State} {p : Port} {f : Frame} (h : s.OpenFor p f) :
    firstRefusal (s.sessionChecks p f) = none := by
  have ho := h.isOpen
  simp only [State.isOpen] at ho
  cases hs : (s.session p).state <;> rw [hs] at ho <;>
    first
    | (simp [SessionState.isOpen] at ho; done)
    | simp [State.sessionChecks, firstRefusal, hs, h.current]

theorem State.supervisorChecks_open {s : State} {p : Port} {f : Frame} (h : s.OpenFor p f) (hp : p = s.supervisor) :
    firstRefusal (s.supervisorChecks p f) = none := by
  rw [State.supervisorChecks, firstRefusal_append, State.sessionChecks_open h]
  simp [firstRefusal, hp]

theorem State.OpenFor.taking {s : State} {k : RequestKind} {p : Port} {f : Frame} (h : s.OpenFor p f) :
    (s.taking k p f).OpenFor p f := ⟨by simpa using h.isOpen, by simpa using h.current⟩

/-! ## The reply -/

section
variable (s : State) (p : Port) (f : Frame) (st : Status) (body : List Byte) (ex : Bool)

theorem State.place_port (q : Port) : (s.place p f st body ex).port q =
    if p = q then
      { (s.port p).addReply s.now
          { bytes := replyFrame (f.kind + 0x80) f.tag (s.incarnation p) st (s.summary p) body
            appliesRate := ex && f.kind == RequestKind.setRate.code } with
        checkStage := none
        cache :=
          if ex then
            some { kind := f.kind, tag := f.tag, inc := f.inc
                   reply := replyFrame (f.kind + 0x80) f.tag (s.incarnation p) st (s.summary p) body }
          else (s.port p).cache }
    else s.port q := by
  simp [State.place]

@[simp] theorem State.place_claims : (s.place p f st body ex).claims = s.claims := rfl
@[simp] theorem State.place_slots : (s.place p f st body ex).slots = s.slots := rfl
@[simp] theorem State.place_resources : (s.place p f st body ex).resources = s.resources := rfl
@[simp] theorem State.place_queues : (s.place p f st body ex).queues = s.queues := rfl
@[simp] theorem State.place_mode : (s.place p f st body ex).mode = s.mode := rfl
@[simp] theorem State.place_supervisor : (s.place p f st body ex).supervisor = s.supervisor := rfl
@[simp] theorem State.place_threshold : (s.place p f st body ex).threshold = s.threshold := rfl
@[simp] theorem State.place_recovery : (s.place p f st body ex).recovery = s.recovery := rfl
@[simp] theorem State.place_filterTime : (s.place p f st body ex).filterTime = s.filterTime := rfl
@[simp] theorem State.place_confirmInputs : (s.place p f st body ex).confirmInputs = s.confirmInputs := rfl
@[simp] theorem State.place_severInputs : (s.place p f st body ex).severInputs = s.severInputs := rfl
@[simp] theorem State.place_now : (s.place p f st body ex).now = s.now := rfl
@[simp] theorem State.place_pending : (s.place p f st body ex).pending = s.pending := rfl
@[simp] theorem State.place_lineReports : (s.place p f st body ex).lineReports = s.lineReports := rfl
@[simp] theorem State.place_ackEvents : (s.place p f st body ex).ackEvents = s.ackEvents := rfl
@[simp] theorem State.place_liveReports : (s.place p f st body ex).liveReports = s.liveReports := rfl
@[simp] theorem State.place_drainReports : (s.place p f st body ex).drainReports = s.drainReports := rfl
@[simp] theorem State.place_sessions : (s.place p f st body ex).sessions = s.sessions := rfl
@[simp] theorem State.place_servedCT : (s.place p f st body ex).servedCT = s.servedCT := rfl
@[simp] theorem State.place_servedSC : (s.place p f st body ex).servedSC = s.servedSC := rfl
@[simp] theorem State.place_servedNS : (s.place p f st body ex).servedNS = s.servedNS := rfl
@[simp] theorem State.place_servedSV : (s.place p f st body ex).servedSV = s.servedSV := rfl
@[simp] theorem State.session_place (q : Port) : (s.place p f st body ex).session q = s.session q := rfl
@[simp] theorem State.queue_place (q : Port) : (s.place p f st body ex).queue q = s.queue q := rfl
@[simp] theorem State.slot_place (q : Port) (h : Handle) : (s.place p f st body ex).slot q h = s.slot q h := rfl
@[simp] theorem State.resource_place (x : ResNo) : (s.place p f st body ex).resource x = s.resource x := rfl
@[simp] theorem State.isOpen_place (q : Port) : (s.place p f st body ex).isOpen q = s.isOpen q := rfl
@[simp] theorem State.isLive_place (q : Port) : (s.place p f st body ex).isLive q = s.isLive q := rfl
@[simp] theorem State.incarnation_place (q : Port) : (s.place p f st body ex).incarnation q = s.incarnation q := rfl
@[simp] theorem State.kindOf_place (x : ResNo) : (s.place p f st body ex).kindOf x = s.kindOf x := rfl
@[simp] theorem State.assigned_place (x : ResNo) : (s.place p f st body ex).assigned x = s.assigned x := rfl
@[simp] theorem State.waitQueue_place (x : ResNo) : (s.place p f st body ex).waitQueue x = s.waitQueue x := rfl
@[simp] theorem State.summary_place (q : Port) : (s.place p f st body ex).summary q = s.summary q := rfl
end

end Sys2Proof.Machine
end

