-- ==== Sys2Proof/Laws/Requests.lean ====
section
/-! SUPPORT. What the execution of any request may do (R25, R26, R169, R170): the verdict of each kind, and what it
leaves alone. -/

namespace Sys2Proof.Machine

/-- The verdict by which the owner of a request kind decides it. -/
def RequestKind.verdict : RequestKind → Port → Frame → State → Verdict
  | .join => joinVerdict
  | .leave => leaveVerdict
  | .touch => touchVerdict
  | .setRate => setRateVerdict
  | .claim => claimVerdict
  | .cancel => cancelVerdict
  | .release => releaseVerdict
  | .fetch => fetchVerdict
  | .sessionInfo => sessionInfoVerdict
  | .resourceInfo => resourceInfoVerdict
  | .holdings => holdingsVerdict
  | .partInfo => partInfoVerdict
  | .define => defineVerdict
  | .undefine => undefineVerdict
  | .setLimits => setLimitsVerdict
  | .setMode => setModeVerdict
  | .setSupervisor => setSupervisorVerdict
  | .forceRelease => forceReleaseVerdict
  | .disable => disableVerdict
  | .clearFault => clearFaultVerdict
  | .sever => severVerdict
  | .restart => restartVerdict

/-- The command of a request kind is the taking of a request of that kind. -/
theorem exec_command (k : RequestKind) (p : Port) (s : State) :
    exec (k.command p) s = .next (s.serve k p (k.verdict p)) := by
  cases k <;> rfl

theorem exec_offered {s : State} {k : RequestKind} {p : Port} {f : Frame} (h : s.Offered k p f) :
    exec (k.command p) s = .next ((s.taking k p f).answer k.owner p f (k.verdict p f (s.taking k p f))) := by
  rw [exec_command, State.serve_offered h]

/-- What the execution of a request of port `p` may do outside the claim table, the sessions and the notices: it moves
no pointer, input or time, and touches of the Port Interfaces only the inbound queues and reply caches of ended
sessions and, for SET_RATE, the pending rate of `p`. -/
structure State.Requested (s t : State) (p : Port) : Prop where
  inputs : s.SameInputs t
  servedCT : t.servedCT = s.servedCT
  servedSC : t.servedSC = s.servedSC
  servedNS : t.servedNS = s.servedNS
  servedSV : t.servedSV = s.servedSV
  replies : ∀ q, (t.port q).replies = (s.port q).replies
  checkStage : ∀ q, (t.port q).checkStage = (s.port q).checkStage
  rate : ∀ q, (t.port q).rate = (s.port q).rate
  pendingRate : ∀ q, q ≠ p → (t.port q).pendingRate = (s.port q).pendingRate

theorem State.SameInputs.refl (s : State) : s.SameInputs s := ⟨rfl, rfl, rfl, rfl⟩

theorem State.SameInputs.trans {s t u : State} (a : s.SameInputs t) (b : t.SameInputs u) : s.SameInputs u :=
  ⟨b.1.trans a.1, b.2.trans a.2, b.3.trans a.3, b.4.trans a.4⟩

theorem State.SameSupervision.refl (s : State) : s.SameSupervision s := ⟨rfl, rfl, rfl, rfl, rfl⟩

theorem State.SameSupervision.trans {s t u : State} (a : s.SameSupervision t) (b : t.SameSupervision u) :
    s.SameSupervision u :=
  ⟨b.1.trans a.1, b.2.trans a.2, b.3.trans a.3, b.4.trans a.4, b.5.trans a.5⟩

theorem State.SameOutsideClaimTable.inputs {s t : State} (a : s.SameOutsideClaimTable t) : s.SameInputs t :=
  ⟨a.confirmInputs, a.severInputs, a.now, a.pending⟩

theorem State.SameOutsideClaimTable.supervision {s t : State} (a : s.SameOutsideClaimTable t) : s.SameSupervision t :=
  ⟨a.mode, a.supervisor, a.threshold, a.recovery, a.filterTime⟩

theorem State.SameOutsideClaimTable.events {s t : State} (a : s.SameOutsideClaimTable t) : s.SameEvents t :=
  ⟨a.ackEvents, a.liveReports⟩

section
variable {s t u : State} {p : Port}

theorem State.Requested.refl (s : State) (p : Port) : s.Requested s p :=
  ⟨.refl s, rfl, rfl, rfl, rfl, fun _ => rfl, fun _ => rfl, fun _ => rfl, fun _ _ => rfl⟩

theorem State.Requested.trans (a : s.Requested t p) (b : t.Requested u p) : s.Requested u p :=
  ⟨a.inputs.trans b.inputs, b.servedCT.trans a.servedCT, b.servedSC.trans a.servedSC, b.servedNS.trans a.servedNS,
   b.servedSV.trans a.servedSV, fun q => (b.replies q).trans (a.replies q),
   fun q => (b.checkStage q).trans (a.checkStage q), fun q => (b.rate q).trans (a.rate q),
   fun q h => (b.pendingRate q h).trans (a.pendingRate q h)⟩

theorem State.Requested.foldl {α : Type} (f : State → α → State) (hf : ∀ (s : State) (a : α), s.Requested (f s a) p) (xs : List α)
    (s : State) : s.Requested (xs.foldl f s) p := by
  induction xs generalizing s with
  | nil => exact .refl s p
  | cons a xs ih => exact (hf s a).trans (ih (f s a))

theorem State.SameOutsideClaimTable.requested (a : s.SameOutsideClaimTable t) : s.Requested t p :=
  ⟨a.inputs, a.servedCT, a.servedSC, a.servedNS, a.servedSV, fun q => by rw [a.port], fun q => by rw [a.port],
   fun q => by rw [a.port], fun q _ => by rw [a.port]⟩

theorem State.TableEvent.requested (a : s.TableEvent t) : s.Requested t p := a.outside.requested

theorem State.SessionEnd.requested {k : Port} {st : SessionState} (a : s.SessionEnd t k st) : s.Requested t p := by
  have key : ∀ q, (t.port q).replies = (s.port q).replies ∧ (t.port q).checkStage = (s.port q).checkStage ∧
      (t.port q).rate = (s.port q).rate ∧ (t.port q).pendingRate = (s.port q).pendingRate := by
    intro q
    by_cases hq : q = k
    · subst hq; rw [a.port]; exact ⟨rfl, rfl, rfl, rfl⟩
    · rw [a.ports q hq]; exact ⟨rfl, rfl, rfl, rfl⟩
  exact ⟨a.inputs, a.served.1, a.served.2.1, a.served.2.2.1, a.served.2.2.2, fun q => (key q).1, fun q => (key q).2.1,
    fun q => (key q).2.2.1, fun q _ => (key q).2.2.2⟩

theorem State.severPort_requested (s : State) (k : Port) (reason : SeverReason) : s.Requested (s.severPort k reason) p := by
  cases h : (s.session k).state.opened with
  | none => unfold State.severPort; rw [h]; exact .refl s p
  | some o => exact (State.severPort_spec s k reason o h).requested

theorem State.setLimits_requested (s : State) (a b c : Nat) : s.Requested (s.limitsEvent a b c) p := by
  unfold State.limitsEvent
  refine State.Requested.trans (t := { s with threshold := a, recovery := b, filterTime := c })
    ⟨⟨rfl, rfl, rfl, rfl⟩, rfl, rfl, rfl, rfl, fun _ => rfl, fun _ => rfl, fun _ => rfl, fun _ _ => rfl⟩
    (State.Requested.foldl _ (fun s k => ?_) _ _)
  unfold State.applyLimits
  split
  · split
    · exact State.severPort_requested s k _
    · split
      · exact ⟨⟨rfl, rfl, rfl, rfl⟩, rfl, rfl, rfl, rfl, fun _ => rfl, fun _ => rfl, fun _ => rfl, fun _ _ => rfl⟩
      · exact .refl s p
  · exact .refl s p

theorem State.changeMode_requested (s : State) (m : DeviceMode) : s.Requested (s.changeMode m) p :=
  ⟨⟨rfl, rfl, rfl, rfl⟩, rfl, rfl, rfl, rfl, fun _ => rfl, fun _ => rfl, fun _ => rfl, fun _ _ => rfl⟩

theorem State.drainToSetup_requested (s : State) : s.Requested s.drainToSetup p :=
  State.Requested.trans (t := { s with mode := .setup })
    ⟨⟨rfl, rfl, rfl, rfl⟩, rfl, rfl, rfl, rfl, fun _ => rfl, fun _ => rfl, fun _ => rfl, fun _ _ => rfl⟩
    (State.notifyMode_tableEvent _ _).requested

theorem State.setModeEvent_requested (s : State) (m : DeviceMode) : s.Requested (s.setModeEvent m) p := by
  have service : s.Requested s.enterService p :=
    (State.changeMode_requested s .service).trans
      ((State.notifyMode_tableEvent _ _).trans (State.evaluate_tableEvent _ _)).requested
  unfold State.setModeEvent
  split
  · exact service
  · exact service
  · unfold State.enterQuiesce
    have drain : s.Requested ((((s.changeMode .quiesce).notifyMode .quiesce).withdrawAll).evaluate
        (s.losers fun c => c.state.isWaiting)) p :=
      (State.changeMode_requested s .quiesce).trans
        (((State.notifyMode_tableEvent _ _).trans (State.withdrawAll_tableEvent _)).trans
          (State.evaluate_tableEvent _ _)).requested
    generalize State.evaluate _ _ = t at drain ⊢
    simp only
    split
    · exact drain.trans (State.drainToSetup_requested t)
    · exact drain
  · exact .refl s p

theorem State.restartPort_requested (b s : State) (k : Port) : s.Requested (State.restartPort b s k) p := by
  unfold State.restartPort
  split
  · refine ⟨⟨rfl, rfl, rfl, rfl⟩, rfl, rfl, rfl, rfl, ?_, ?_, ?_, ?_⟩ <;> intro q <;>
      simp [State.dropFrames, State.clearQueue, State.setSessionState] <;> split <;> simp_all
  · exact .refl s p

theorem State.restartResource_tableEvent (s : State) (x : ResNo) : s.TableEvent (s.restartResource x) := by
  unfold State.restartResource
  split
  · next sh st h =>
    refine (State.setToken_lineOrder s x sh st .vacant h).tableEvent fun _ k hk => ?_
    rw [State.kindOf_setKind s x _ _ h] at hk
    cases hk
    trivial
  · exact State.cool_tableEvent s x
  · exact .refl s

theorem State.restartEvent_requested (s : State) : s.Requested s.restartEvent p := by
  unfold State.restartEvent
  have h1 : s.Requested ((List.finRange 6).foldl (fun t p => s.restartPort t p) s) p :=
    State.Requested.foldl _ (fun t k => State.restartPort_requested s t k) _ _
  simp only
  refine (h1.trans ?_).trans (State.changeMode_requested _ _)
  refine State.Requested.trans (t := { ((List.finRange 6).foldl (fun t p => s.restartPort t p) s) with
    claims := [], slots := Vector.replicate 6 (Vector.replicate 8 .free) })
    ⟨⟨rfl, rfl, rfl, rfl⟩, rfl, rfl, rfl, rfl, fun _ => rfl, fun _ => rfl, fun _ => rfl, fun _ _ => rfl⟩ ?_
  exact State.Requested.foldl _ (fun t x => (State.restartResource_tableEvent t x).requested) _ _

end

/-- A verdict is a refusal, or an execution with one of the success statuses whose state is one a request can lead to. -/
def Verdict.Follows (s : State) (p : Port) : Verdict → Prop
  | .refused st => 0x10 ≤ st.code.toNat
  | .executed st _ t => st.code.toNat ≤ 2 ∧ s.Requested t p

theorem Verdict.checked_follows {s : State} {p : Port} {cs : List (Bool × Status)} {go : Verdict}
    (hcs : ∀ c ∈ cs, 0x10 ≤ c.2.code.toNat) (hgo : go.Follows s p) : (Verdict.checked cs go).Follows s p := by
  unfold Verdict.checked
  split
  · next st h => exact hcs _ (firstRefusal_mem h)
  · exact hgo

theorem State.fileRequest_requested (s : State) (p q : Port) (h : Handle) (items : List Item) (limit : Word16) :
    s.Requested (s.fileRequest q h items limit) p :=
  ⟨⟨rfl, rfl, rfl, rfl⟩, rfl, rfl, rfl, rfl, fun _ => rfl, fun _ => rfl, fun _ => rfl, fun _ _ => rfl⟩

theorem State.accept_requested (s : State) (p q : Port) (h : Handle) (items : List Item) (limit : Word16) :
    s.Requested (s.accept q h items limit) p :=
  ((State.fileRequest_requested s p q h items limit).trans
    (State.TableEvent.foldl _ (fun s x => State.beginYield_tableEvent s x _) _ _).requested).trans
    (State.evaluateWith_tableEvent _ _ _).requested

theorem State.cancelRequest_requested (s : State) (p q : Port) (h : Handle) : s.Requested (s.cancelRequest q h) p :=
  ((State.removeClaims_tableEvent s _).requested.trans
    (State.Requested.trans (t := (s.removeClaims (Claim.ofRequest q h)).setSlot q h .free)
      ⟨⟨rfl, rfl, rfl, rfl⟩, rfl, rfl, rfl, rfl, fun _ => rfl, fun _ => rfl, fun _ => rfl, fun _ _ => rfl⟩
      (State.evaluate_tableEvent _ _).requested))

theorem State.forceReleaseEvent_tableEvent (s : State) (x : ResNo) : s.TableEvent (s.forceReleaseEvent x) :=
  ((State.revoke_tableEvent _ _ _ _).trans (State.failAll_tableEvent _ _ _ _)).trans (State.evaluate_tableEvent _ _)

theorem State.disableEvent_tableEvent (s : State) (x : ResNo) : s.TableEvent (s.disableEvent x) :=
  (((State.faultResource_tableEvent s x _).trans (State.revoke_tableEvent _ _ _ _)).trans
    (State.failAll_tableEvent _ _ _ _)).trans (State.evaluate_tableEvent _ _)

theorem State.clearFaultEvent_tableEvent (s : State) (x : ResNo) : s.TableEvent (s.clearFaultEvent x) := by
  unfold State.clearFaultEvent
  split
  · exact (State.cool_tableEvent s x).trans (State.evaluate_tableEvent _ _)
  · next sh h =>
    refine (State.LineOrder.tableEvent (State.setToken_lineOrder s x sh _ .vacant h) fun _ k hk => ?_).trans
      (State.evaluate_tableEvent _ _)
    rw [State.kindOf_setKind s x _ _ h] at hk
    cases hk
    trivial
  · exact .refl s

/-- Every verdict is a refusal that changes nothing or an execution that leaves alone what `State.Requested` says. -/
theorem RequestKind.verdict_follows (k : RequestKind) (p : Port) (f : Frame) (s : State) :
    (k.verdict p f s).Follows s p := by
  cases k with
  | join =>
    refine Verdict.checked_follows (by simp [Status.code]) ⟨by decide, ?_⟩
    refine (State.severPort_requested s p .rejoin).trans ?_
    refine ⟨⟨rfl, rfl, rfl, rfl⟩, rfl, rfl, rfl, rfl, ?_, ?_, ?_, ?_⟩ <;> intro q <;>
      simp [State.openSession] <;> split <;> simp_all
  | leave =>
    exact Verdict.checked_follows (by simp [State.sessionChecks, Status.code])
      ⟨by decide, (State.endSession_spec s p .idle rfl).requested⟩
  | touch => exact Verdict.checked_follows (by simp [State.sessionChecks, Status.code]) ⟨by decide, .refl s p⟩
  | setRate =>
    refine Verdict.checked_follows (by simp [State.sessionChecks, Status.code]) ⟨by decide, ?_⟩
    refine ⟨⟨rfl, rfl, rfl, rfl⟩, rfl, rfl, rfl, rfl, ?_, ?_, ?_, ?_⟩ <;> intro q <;>
      simp <;> (try intro hq) <;> split <;> simp_all
  | claim =>
    refine Verdict.checked_follows (by simp [State.claimChecks, State.modeCheck, State.sessionChecks, Status.code]) ?_
    unfold acceptedAnswer
    split
    · exact ⟨by decide, State.accept_requested ..⟩
    · exact ⟨by decide, State.accept_requested ..⟩
  | cancel =>
    exact Verdict.checked_follows (by simp [State.sessionChecks, Status.code]) ⟨by decide, State.cancelRequest_requested ..⟩
  | release =>
    exact Verdict.checked_follows (by simp [State.sessionChecks, State.resourceChecks, Status.code])
      ⟨by decide, ((State.removeClaims_tableEvent s _).trans (State.evaluate_tableEvent _ _)).requested⟩
  | fetch =>
    refine Verdict.checked_follows (by simp [State.sessionChecks, Status.code]) ⟨by decide, ?_⟩
    exact ⟨⟨rfl, rfl, rfl, rfl⟩, rfl, rfl, rfl, rfl, fun _ => rfl, fun _ => rfl, fun _ => rfl, fun _ _ => rfl⟩
  | sessionInfo => exact Verdict.checked_follows (by simp [State.sessionChecks, Status.code]) ⟨by decide, .refl s p⟩
  | resourceInfo =>
    exact Verdict.checked_follows (by simp [State.sessionChecks, State.resourceChecks, Status.code])
      ⟨by decide, .refl s p⟩
  | holdings => exact Verdict.checked_follows (by simp [State.sessionChecks, Status.code]) ⟨by decide, .refl s p⟩
  | partInfo => exact Verdict.checked_follows (by simp [State.partInfoChecks, Status.code]) ⟨by decide, .refl s p⟩
  | define =>
    exact Verdict.checked_follows
      (by simp [State.supervisorChecks, State.modeCheck, State.sessionChecks, Status.code])
      ⟨by decide, ⟨rfl, rfl, rfl, rfl⟩, rfl, rfl, rfl, rfl, fun _ => rfl, fun _ => rfl, fun _ => rfl, fun _ _ => rfl⟩
  | undefine =>
    exact Verdict.checked_follows
      (by simp [State.supervisorChecks, State.modeCheck, State.resourceChecks, State.sessionChecks, Status.code])
      ⟨by decide, ⟨rfl, rfl, rfl, rfl⟩, rfl, rfl, rfl, rfl, fun _ => rfl, fun _ => rfl, fun _ => rfl, fun _ _ => rfl⟩
  | setLimits =>
    exact Verdict.checked_follows
      (by simp [State.supervisorChecks, State.modeCheck, State.sessionChecks, Status.code])
      ⟨by decide, State.setLimits_requested ..⟩
  | setMode =>
    exact Verdict.checked_follows (by simp [State.supervisorChecks, State.sessionChecks, Status.code])
      ⟨by decide, State.setModeEvent_requested ..⟩
  | setSupervisor =>
    exact Verdict.checked_follows (by simp [State.supervisorChecks, State.sessionChecks, Status.code])
      ⟨by decide, ⟨rfl, rfl, rfl, rfl⟩, rfl, rfl, rfl, rfl, fun _ => rfl, fun _ => rfl, fun _ => rfl, fun _ _ => rfl⟩
  | forceRelease =>
    exact Verdict.checked_follows
      (by simp [State.supervisorChecks, State.resourceChecks, State.sessionChecks, Status.code])
      ⟨by decide, (State.forceReleaseEvent_tableEvent s _).requested⟩
  | disable =>
    exact Verdict.checked_follows
      (by simp [State.supervisorChecks, State.resourceChecks, State.sessionChecks, Status.code])
      ⟨by decide, (State.disableEvent_tableEvent s _).requested⟩
  | clearFault =>
    exact Verdict.checked_follows
      (by simp [State.supervisorChecks, State.resourceChecks, State.sessionChecks, Status.code])
      ⟨by decide, (State.clearFaultEvent_tableEvent s _).requested⟩
  | sever =>
    exact Verdict.checked_follows (by simp [State.supervisorChecks, State.sessionChecks, Status.code])
      ⟨by decide, State.severPort_requested ..⟩
  | restart =>
    exact Verdict.checked_follows (by simp [State.supervisorChecks, State.sessionChecks, Status.code])
      ⟨by decide, State.restartEvent_requested s⟩

/-! ## The checks and the answer -/

theorem Verdict.checked_append_some {cs ds : List (Bool × Status)} {go : Verdict} {st : Status}
    (h : firstRefusal cs = some st) : Verdict.checked (cs ++ ds) go = .refused st := by
  apply Verdict.checked_some; rw [firstRefusal_append, h]; rfl

/-- The session check stands first in every request but JOIN and PART_INFO (R104, R191). -/
theorem RequestKind.verdict_session {k : RequestKind} {p : Port} {f : Frame} {s : State} {st : Status} (hj : k ≠ .join)
    (hp : k ≠ .partInfo) (h : firstRefusal (s.sessionChecks p f) = some st) : k.verdict p f s = .refused st := by
  cases k with
  | join => exact absurd rfl hj
  | partInfo => exact absurd rfl hp
  | leave => exact Verdict.checked_some h
  | touch => exact Verdict.checked_some h
  | sessionInfo => exact Verdict.checked_some h
  | restart => exact Verdict.checked_append_some h
  | setRate => exact Verdict.checked_append_some h
  | claim => exact Verdict.checked_append_some h
  | cancel => exact Verdict.checked_append_some h
  | fetch => exact Verdict.checked_append_some h
  | holdings => exact Verdict.checked_append_some h
  | release =>
    exact Verdict.checked_append_some
      (by rw [firstRefusal_append, h]; rfl)
  | resourceInfo => exact Verdict.checked_append_some h
  | define => exact Verdict.checked_append_some (by rw [State.supervisorChecks, firstRefusal_append, h]; rfl)
  | undefine => exact Verdict.checked_append_some (by rw [State.supervisorChecks, firstRefusal_append, h]; rfl)
  | setLimits => exact Verdict.checked_append_some (by rw [State.supervisorChecks, firstRefusal_append, h]; rfl)
  | setMode => exact Verdict.checked_append_some (by rw [State.supervisorChecks, firstRefusal_append, h]; rfl)
  | setSupervisor => exact Verdict.checked_append_some (by rw [State.supervisorChecks, firstRefusal_append, h]; rfl)
  | forceRelease => exact Verdict.checked_append_some (by rw [State.supervisorChecks, firstRefusal_append, h]; rfl)
  | disable => exact Verdict.checked_append_some (by rw [State.supervisorChecks, firstRefusal_append, h]; rfl)
  | clearFault => exact Verdict.checked_append_some (by rw [State.supervisorChecks, firstRefusal_append, h]; rfl)
  | sever => exact Verdict.checked_append_some (by rw [State.supervisorChecks, firstRefusal_append, h]; rfl)

/-- The permission check comes next in a supervisor request (R152, R191). -/
theorem RequestKind.verdict_supervisor {k : RequestKind} {p : Port} {f : Frame} {s : State} {st : Status}
    (hk : k.isSupervisor = true) (h : firstRefusal (s.supervisorChecks p f) = some st) :
    k.verdict p f s = .refused st := by
  cases k with
  | restart => exact Verdict.checked_some h
  | define => exact Verdict.checked_append_some h
  | undefine => exact Verdict.checked_append_some h
  | setLimits => exact Verdict.checked_append_some h
  | setMode => exact Verdict.checked_append_some h
  | setSupervisor => exact Verdict.checked_append_some h
  | forceRelease => exact Verdict.checked_append_some h
  | disable => exact Verdict.checked_append_some h
  | clearFault => exact Verdict.checked_append_some h
  | sever => exact Verdict.checked_append_some h
  | join | leave | touch | setRate | claim | cancel | release | fetch | sessionInfo | resourceInfo | holdings
  | partInfo => cases hk

section
variable (s : State) (o : Owner) (q : Port)

@[simp] theorem State.endOfServe_session : (s.endOfServe o).session q = s.session q := by
  cases o <;> simp [State.endOfServe]
@[simp] theorem State.endOfServe_port : (s.endOfServe o).port q = s.port q := by cases o <;> simp [State.endOfServe]
@[simp] theorem State.endOfServe_queue : (s.endOfServe o).queue q = s.queue q := by cases o <;> simp [State.endOfServe]
@[simp] theorem State.endOfServe_incarnation : (s.endOfServe o).incarnation q = s.incarnation q := by
  cases o <;> simp [State.endOfServe]
end

/-- A refusal but SESSION_SEVERED is answered with an empty body (R184). -/
theorem State.answer_refused (s : State) (o : Owner) (p : Port) (f : Frame) {st : Status} (h : st ≠ .sessionSevered) :
    s.answer o p f (.refused st) = (s.endOfServe o).place p f st [] false := by
  have : (s.endOfServe o).refusalBody p st = [] := by
    unfold State.refusalBody
    split
    · exact absurd rfl h
    · rfl
  exact congrArg (fun b => (s.endOfServe o).place p f _ b false) this

/-- SESSION_SEVERED carries the sever reason (R104, R184). -/
theorem State.answer_severed (s : State) (o : Owner) (p : Port) (f : Frame) {r : SeverReport}
    (h : (s.session p).state = .severed r) :
    s.answer o p f (.refused .sessionSevered) = (s.endOfServe o).place p f .sessionSevered [r.reason.code] false := by
  have : (s.endOfServe o).refusalBody p .sessionSevered = [r.reason.code] := by
    unfold State.refusalBody
    rw [State.endOfServe_session, h]
  exact congrArg (fun b => (s.endOfServe o).place p f _ b false) this

theorem State.place_answered {s t : State} (p : Port) (f : Frame) (st : Status) (body : List Byte) (ex : Bool)
    (h : (t.port p).replies = (s.port p).replies) : s.Answered (t.place p f st body ex) p f st body := by
  constructor
  · simp [State.place_port]
  · refine ⟨{ bytes := replyFrame (f.kind + 0x80) f.tag (t.incarnation p) st (t.summary p) body
              appliesRate := ex && f.kind == RequestKind.setRate.code }, ?_, rfl⟩
    simp [State.place_port, h]

/-- A request that is executed is answered with the status and body of its verdict (R170, R171). -/
theorem State.Offered.executed {s t : State} {k : RequestKind} {p : Port} {f : Frame} {st : Status} {body : List Byte}
    (h : s.Offered k p f) (hv : k.verdict p f (s.taking k p f) = .executed st body t) :
    exec (k.command p) s = .next ((t.endOfServe k.owner).place p f st body true)
    ∧ s.Answered ((t.endOfServe k.owner).place p f st body true) p f st body
    ∧ (s.taking k p f).Requested t p := by
  have hf := k.verdict_follows p f (s.taking k p f)
  rw [hv] at hf
  refine ⟨by rw [exec_offered h, hv]; rfl, State.place_answered p f st body true ?_, hf.2⟩
  rw [State.endOfServe_port, hf.2.replies, State.taking_port, if_pos rfl]

/-- A request that is refused, but with SESSION_SEVERED, changes nothing but for its reply and what the taking did
(R191). -/
theorem State.Offered.refused {s : State} {k : RequestKind} {p : Port} {f : Frame} {st : Status}
    (h : s.Offered k p f) (hv : k.verdict p f (s.taking k p f) = .refused st) (hs : st ≠ .sessionSevered) :
    exec (k.command p) s = .next (((s.taking k p f).endOfServe k.owner).place p f st [] false) := by
  rw [exec_offered h, hv, State.answer_refused _ _ _ _ hs]

end Sys2Proof.Machine
end

