-- ==== Sys2Proof/Laws/Removal.lean ====
section
/-! SUPPORT. What a removal of claims makes of the resources (R44, R56, R94, R95), what stays of a notice once it is
added (R130, R132), and what a grant writes (R8, R40). -/

namespace Sys2Proof.Machine

/-! ## Removal -/

/-- The kind part in which a removal leaves a resource, `empty` saying that no assigned claim remains (R44, R56). -/
def Kind.settled (k : Kind) (empty : Bool) (now : Time) : Kind :=
  match k with
  | .token sh .faulted => .token sh .faulted
  | .token sh _ => .token sh (if empty then .vacant else .occupied)
  | .line d .guard lu => .line d .cooling lu
  | .line d .verify _ => .line d .vacant { applied := none, phase := .quiet }
  | .line d .engage _ => .line d .cooling { applied := none, phase := .guard (now + d.guard.toNat) }
  | .line d .held _ => .line d .cooling { applied := none, phase := .guard (now + d.guard.toNat) }
  | k => k

theorem Kind.settled_settled (k : Kind) (empty : Bool) (now : Time) :
    (k.settled empty now).settled empty now = k.settled empty now := by
  unfold Kind.settled
  rcases k with ⟨sh, st⟩ | ⟨d, st, lu⟩
  · cases st <;> cases empty <;> rfl
  · cases st <;> rfl

theorem State.resource_driveIdle (s : State) (x y : ResNo) : (s.driveIdle x).resource y =
    if x = y then (s.resource x).map fun r =>
      match r.kind with
      | .line d st _ => { r with kind := .line d st { applied := none, phase := .quiet } }
      | .token _ _ => r
    else s.resource y := by
  simp [State.driveIdle, State.order, State.mapPhase, State.staleReports]
  all_goals rfl

theorem State.resource_cool (s : State) (x y : ResNo) : (s.cool x).resource y =
    if x = y then (s.resource x).map fun r =>
      match r.kind with
      | .line d _ _ =>
        { r with kind := .line d .cooling { applied := none, phase := .guard (s.now + d.guard.toNat) } }
      | .token _ _ => r
    else s.resource y := by
  have hn : (s.driveIdle x).now = s.now := rfl
  by_cases e : x = y
  · subst e
    simp only [State.cool, State.setLineState, State.startGuard, State.order, State.mapPhase, State.staleReports,
      State.resource_mapResource, State.resource_setLineReports, if_true, State.resource_driveIdle, Option.map_map, hn]
    congr 1
    funext r
    cases h : r.kind <;> simp [h]
  · simp [State.cool, State.setLineState, State.startGuard, State.order, State.mapPhase, State.staleReports, e,
      State.resource_driveIdle]

/-- R44, R56, R94, R95: only the resource settled changes, and only its kind part. -/
theorem State.resource_settle (s : State) (x y : ResNo) : (s.settle x).resource y =
    if x = y then (s.resource x).map fun r => { r with kind := r.kind.settled (s.assigned x).isEmpty s.now }
    else s.resource y := by
  by_cases e : x = y
  · subst e
    simp only [if_true]
    unfold State.settle
    cases hr : s.resource x with
    | none => simp [State.kindOf, hr]
    | some r =>
      obtain ⟨l, hl, yg, g, k⟩ := r
      have hk : s.kindOf x = some k := by simp [State.kindOf, hr]
      rw [hk]
      rcases k with ⟨sh, st⟩ | ⟨d, st, lu⟩ <;> cases st <;>
        simp [Kind.settled, State.setKind, State.setLineState, State.resource_cool, State.resource_driveIdle, hr]
  · rw [if_neg e, (State.settle_lineOrder s x).others y (Ne.symm e)]

theorem State.foldl_settle_resource (xs : List ResNo) (s : State) (y : ResNo) :
    (xs.foldl State.settle s).resource y =
      if y ∈ xs then (s.resource y).map fun r => { r with kind := r.kind.settled (s.assigned y).isEmpty s.now }
      else s.resource y := by
  induction xs generalizing s with
  | nil => simp
  | cons x xs ih =>
    have ho := State.settle_lineOrder s x
    have ha : (s.settle x).assigned y = s.assigned y := by simp [State.assigned, ho.claims]
    rw [List.foldl_cons, ih, State.resource_settle, ha, ho.outside.now]
    by_cases e : x = y
    · subst e
      by_cases hm : x ∈ xs <;> simp [hm, Function.comp_def, Kind.settled_settled]
    · simp [e, Ne.symm e]

/-- The resources after a removal (R44, R56): one that lost an assigned claim is settled, the others are as before. -/
theorem State.removeClaims_resource (s : State) (sel : Claim → Bool) (y : ResNo) :
    (s.removeClaims sel).resource y =
      if ∃ c ∈ s.assigned y, sel c = true then
        (s.resource y).map fun r =>
          { r with kind := r.kind.settled ((s.assigned y).filter fun c => !sel c).isEmpty s.now }
      else s.resource y := by
  unfold State.removeClaims
  rw [State.foldl_settle_resource]
  have h1 : (y ∈ (s.claims.filter fun c => sel c && c.state.isAssigned).map fun c => c.resource) ↔
      ∃ c ∈ s.assigned y, sel c = true := by
    simp only [List.mem_map, List.mem_filter, Bool.and_eq_true, State.assigned, beq_iff_eq]
    constructor
    · rintro ⟨c, ⟨hc, h1, h2⟩, rfl⟩; exact ⟨c, ⟨hc, rfl, h2⟩, h1⟩
    · rintro ⟨c, ⟨hc, h1, h2⟩, h3⟩; exact ⟨c, ⟨hc, h3, h2⟩, h1⟩
  have h2 : (s.setClaims (s.claims.filter fun c => !sel c)).assigned y = (s.assigned y).filter fun c => !sel c := by
    simp [State.assigned, List.filter_filter, Bool.and_comm]
  rw [h2]
  simp only [h1, State.resource_setClaims, State.setClaims_now]

/-- A resource none of whose assigned claims is removed is left as it is. -/
theorem State.removeClaims_resource_other (s : State) (sel : Claim → Bool) (y : ResNo)
    (h : ∀ c ∈ s.assigned y, sel c = false) : (s.removeClaims sel).resource y = s.resource y := by
  rw [State.removeClaims_resource, if_neg]
  rintro ⟨c, hc, hs⟩
  rw [h c hc] at hs; cases hs

/-! ## Notices that stay -/

theorem NoticeQueue.mem_add (q : NoticeQueue) (n : Notice) (e : Entry) :
    e ∈ (q.add n).entries ↔
      (e ∈ q.entries ∧ e.notice.key ≠ n.key) ∨ e = { seq := q.nextSeq, notice := n, delivered := false } := by
  simp [NoticeQueue.add_entries]

@[simp] theorem State.queue_notify (s : State) (p q : Port) (n : Notice) :
    (s.notify p n).queue q = if p = q ∧ s.isOpen p = true then (s.queue p).add n else s.queue q := by
  unfold State.notify
  by_cases ho : s.isOpen p = true
  · rw [if_pos ho]
    by_cases e : p = q
    · subst e; simp [ho]
    · simp [e]
  · simp [ho]

/-- A notice for an open session is there, undelivered, once it is added (R130). -/
theorem State.notify_hasNotice (s : State) (p : Port) (n : Notice) (h : s.isOpen p = true) :
    (s.notify p n).HasNotice p n := by
  refine ⟨{ seq := (s.queue p).nextSeq, notice := n, delivered := false }, ?_, rfl, rfl⟩
  rw [State.queue_notify, if_pos ⟨rfl, h⟩]
  exact (NoticeQueue.mem_add _ _ _).mpr (.inr rfl)

/-- A notice stays when another of another key, or for another port, is added (R132). -/
theorem State.HasNotice.notify {s : State} {p : Port} {n : Notice} (h : s.HasNotice p n) (q : Port) (m : Notice)
    (hk : q = p → m.key ≠ n.key) : (s.notify q m).HasNotice p n := by
  obtain ⟨e, he, hn, hd⟩ := h
  refine ⟨e, ?_, hn, hd⟩
  rw [State.queue_notify]
  split
  · next hq => exact (NoticeQueue.mem_add _ _ _).mpr (.inl ⟨hq.1 ▸ he, by rw [hn]; exact fun h => hk hq.1 h.symm⟩)
  · exact he

theorem State.HasNotice.congr {s t : State} {p : Port} {n : Notice} (h : s.HasNotice p n) (hq : t.queue p = s.queue p) :
    t.HasNotice p n := by
  unfold State.HasNotice; rw [hq]; exact h

/-! ## Grant -/

/-- The record of a resource whose item is granted (R8, R91). -/
def Resource.granted (r : Resource) : Resource :=
  { r with
    grantNumber := r.grantNumber + 1
    kind :=
      match r.kind with
      | .line d .engage lu => .line d .held lu
      | k => k }

/-- The claims after the grants of the items on `xs`. -/
def State.grantedClaims (s : State) (p : Port) (h : Handle) (xs : List ResNo) : List Claim :=
  s.claims.map fun c =>
    if Claim.ofRequest p h c = true ∧ c.state.isReserved = true ∧ c.resource ∈ xs then s.granted c else c

theorem State.grantItem_resource (s : State) (p : Port) (h : Handle) (x y : ResNo) :
    (s.grantItem p h x).resource y = if x = y then (s.resource x).map Resource.granted else s.resource y := by
  unfold State.grantItem
  cases hr : s.resource x with
  | none =>
    by_cases e : x = y
    · subst e; simp [hr]
    · simp [e]
  | some r =>
    by_cases e : x = y
    · subst e
      obtain ⟨l, hl, yg, g, k⟩ := r
      rcases k with ⟨sh, st⟩ | ⟨d, st, lu⟩
      · simp [Resource.granted]
      · cases st <;> simp [Resource.granted]
    · simp [e]

theorem State.grantItem_claims (s : State) (p : Port) (h : Handle) (x : ResNo) (hx : (s.resource x).isSome = true) :
    (s.grantItem p h x).claims = s.grantedClaims p h [x] := by
  obtain ⟨r, hr⟩ := Option.isSome_iff_exists.mp hx
  unfold State.grantItem State.grantedClaims
  rw [hr]
  refine List.map_congr_left fun c _ => ?_
  by_cases e : c.resource = x
  · simp [e, hr, State.granted, State.grantOf, State.holdAt, State.holdStart]
  · simp [e]

theorem State.grantItem_queues (s : State) (p : Port) (h : Handle) (x : ResNo) :
    (s.grantItem p h x).queues = s.queues := by unfold State.grantItem; split <;> rfl

theorem State.grantItem_lineReports (s : State) (p : Port) (h : Handle) (x : ResNo) :
    (s.grantItem p h x).lineReports = s.lineReports := by unfold State.grantItem; split <;> rfl

theorem State.grantItem_now (s : State) (p : Port) (h : Handle) (x : ResNo) :
    (s.grantItem p h x).now = s.now := by unfold State.grantItem; split <;> rfl

theorem State.grants_queues (p : Port) (h : Handle) (xs : List ResNo) (s : State) :
    (xs.foldl (fun s x => s.grantItem p h x) s).queues = s.queues := by
  induction xs generalizing s with
  | nil => rfl
  | cons a xs ih => rw [List.foldl_cons, ih, State.grantItem_queues]

theorem State.grants_lineReports (p : Port) (h : Handle) (xs : List ResNo) (s : State) :
    (xs.foldl (fun s x => s.grantItem p h x) s).lineReports = s.lineReports := by
  induction xs generalizing s with
  | nil => rfl
  | cons a xs ih => rw [List.foldl_cons, ih, State.grantItem_lineReports]

theorem State.grants_resource (p : Port) (h : Handle) (xs : List ResNo) (hn : xs.Nodup) (s : State) (y : ResNo) :
    (xs.foldl (fun s x => s.grantItem p h x) s).resource y =
      if y ∈ xs then (s.resource y).map Resource.granted else s.resource y := by
  induction xs generalizing s with
  | nil => simp
  | cons x xs ih =>
    rw [List.nodup_cons] at hn
    rw [List.foldl_cons, ih hn.2, State.grantItem_resource]
    by_cases e : x = y
    · subst e; simp [hn.1]
    · simp [e, Ne.symm e]

/-- R8, R40: each RESERVED claim of the request on a granted item is HELD under the item's new grant number. -/
theorem State.grants_claims (p : Port) (h : Handle) (xs : List ResNo) (hn : xs.Nodup) (s : State)
    (hx : ∀ x ∈ xs, (s.resource x).isSome = true) :
    (xs.foldl (fun s x => s.grantItem p h x) s).claims = s.grantedClaims p h xs := by
  induction xs generalizing s with
  | nil => simp [State.grantedClaims]
  | cons x xs ih =>
    rw [List.nodup_cons] at hn
    rw [List.foldl_cons, ih hn.2]
    · unfold State.grantedClaims
      rw [State.grantItem_claims _ _ _ _ (hx x List.mem_cons_self), State.grantedClaims, List.map_map]
      refine List.map_congr_left fun c _ => ?_
      have hg : c.resource ≠ x → (s.grantItem p h x).granted c = s.granted c := by
        intro e
        simp [State.granted, State.grantOf, State.holdAt, State.holdStart, State.grantItem_resource, Ne.symm e,
          State.grantItem_now]
      have hh : Claim.ofRequest p h (s.granted c) = false := by
        simp [Claim.ofRequest, State.granted, ClaimState.handle]
      by_cases hc : Claim.ofRequest p h c = true ∧ c.state.isReserved = true
      · by_cases e : c.resource = x
        · simp [e, hc.1, hc.2, hh]
        · simp [e, hg e]
      · have h0 : ∀ ys : List ResNo, (if Claim.ofRequest p h c = true ∧ c.state.isReserved = true ∧ c.resource ∈ ys
            then s.granted c else c) = c := fun ys => if_neg fun h => hc ⟨h.1, h.2.1⟩
        simp only [Function.comp_apply, h0]
        exact if_neg fun h => hc ⟨h.1, h.2.1⟩
    · intro y hy
      have : y ≠ x := fun e => hn.1 (e ▸ hy)
      rw [State.grantItem_resource, if_neg (Ne.symm this)]
      exact hx y (List.mem_cons_of_mem _ hy)

/-- The grant numbers that a grant of distinct defined items reports (R41, R189). -/
theorem State.grantNumbers_grants (p : Port) (h : Handle) (xs : List ResNo) (hn : xs.Nodup) (s : State)
    (hx : ∀ x ∈ xs, (s.resource x).isSome = true) :
    (xs.foldl (fun s x => s.grantItem p h x) s).grantNumbers xs = xs.map fun x => (x, s.grantOf x + 1) := by
  unfold State.grantNumbers
  rw [← List.filterMap_eq_map]
  refine List.filterMap_congr fun x hm => ?_
  rw [State.grants_resource p h xs hn, if_pos hm]
  obtain ⟨r, hr⟩ := Option.isSome_iff_exists.mp (hx x hm)
  simp [hr, Resource.granted, State.grantOf]

end Sys2Proof.Machine
end

