-- ==== Sys2Proof/Laws/Reports.lean ====
section
/-! SUPPORT. The Line Unit's reports and the filtered levels said once (R77, R78, R81, R90), the notice of a mode
change (R150), and when a head claim cannot be reserved (R33, R35). -/

namespace Sys2Proof.Machine

theorem State.kindOf_eq_some {s : State} {x : ResNo} {k : Kind} (h : s.kindOf x = some k) :
    ∃ r, s.resource x = some r ∧ r.kind = k := by
  simp only [State.kindOf] at h
  cases hr : s.resource x <;> simp_all

/-- The kind part of the resource a removal settles (R44, R56). -/
theorem State.kindOf_settle {s : State} {x : ResNo} {k : Kind} (h : s.kindOf x = some k) :
    (s.settle x).kindOf x = some (k.settled (s.assigned x).isEmpty s.now) := by
  obtain ⟨r, hr, rfl⟩ := State.kindOf_eq_some h
  simp [State.kindOf, State.resource_settle, hr]

/-! ## Filtered levels (R78) -/

section
variable (c : ConfNo) (s t : State) (x y : ResNo)

theorem State.meetLevel_resource_other (h : y ≠ x) : (State.meetLevel c s x).resource y = s.resource y := by
  unfold State.meetLevel
  split
  · split
    · split
      · split
        · simp [State.setPhase, State.mapPhase, State.report, Ne.symm h]
        · rfl
      · rfl
    · rfl
  · rfl

theorem State.meetLevel_confirmInputs : (State.meetLevel c s x).confirmInputs = s.confirmInputs := by
  unfold State.meetLevel
  repeat' split
  all_goals rfl

/-- What the meeting of a level leaves alone. -/
structure State.MeetsLevel (s t : State) : Prop where
  outside : s.SameOutsideClaimTable t
  claims : t.claims = s.claims
  slots : t.slots = s.slots
  queues : t.queues = s.queues
  drainReports : t.drainReports = s.drainReports
  lineReports : ∀ r ∈ s.lineReports, r ∈ t.lineReports

theorem State.meetLevel_rest : s.MeetsLevel (State.meetLevel c s x) := by
  unfold State.meetLevel
  repeat' split
  all_goals
    refine ⟨⟨rfl, rfl, rfl, rfl, rfl, rfl, rfl, rfl, rfl, rfl, rfl, rfl, rfl, rfl, rfl, rfl, rfl⟩, rfl, rfl, rfl, rfl,
      fun r hr => ?_⟩
    first
    | exact hr
    | exact List.mem_append_left _ hr

theorem State.meetLevel_local (h1 : s.resource x = t.resource x) (h2 : s.confirmInputs = t.confirmInputs) :
    (State.meetLevel c s x).resource x = (State.meetLevel c t x).resource x := by
  unfold State.meetLevel State.kindOf State.engagedLevel
  rw [h1, h2]
  repeat' split
  all_goals first | exact h1 | simp [State.report, State.setPhase, State.mapPhase, h1]

theorem State.meetLevel_local_reports (h1 : s.resource x = t.resource x) (h2 : s.confirmInputs = t.confirmInputs)
    (r : LineReport) (h : r ∈ (State.meetLevel c t x).lineReports) :
    r ∈ t.lineReports ∨ r ∈ (State.meetLevel c s x).lineReports := by
  revert h
  unfold State.meetLevel State.kindOf State.engagedLevel
  rw [h1, h2]
  repeat' split
  all_goals first
    | (intro h; left; exact h)
    | (intro h
       rcases List.mem_append.mp h with h | h
       · exact .inl h
       · exact .inr (List.mem_append_right _ h))

theorem State.meetLevels_rest (xs : List ResNo) (s : State) : s.MeetsLevel (xs.foldl (State.meetLevel c) s)
    ∧ (xs.foldl (State.meetLevel c) s).confirmInputs = s.confirmInputs := by
  induction xs generalizing s with
  | nil => exact ⟨⟨.refl s, rfl, rfl, rfl, rfl, fun _ h => h⟩, rfl⟩
  | cons x xs ih =>
    obtain ⟨a, a'⟩ := ih (State.meetLevel c s x)
    have b := State.meetLevel_rest c s x
    exact ⟨⟨b.outside.trans a.outside, a.claims.trans b.claims, a.slots.trans b.slots, a.queues.trans b.queues,
      a.drainReports.trans b.drainReports, fun r h => a.lineReports r (b.lineReports r h)⟩,
      a'.trans (State.meetLevel_confirmInputs c s x)⟩

/-- Each resource meets a change of a filtered level for itself. -/
theorem State.meetLevels_resource (xs : List ResNo) (s : State) (hn : xs.Nodup) :
    (xs.foldl (State.meetLevel c) s).resource y =
      if y ∈ xs then (State.meetLevel c s y).resource y else s.resource y := by
  induction xs generalizing s with
  | nil => simp
  | cons x xs ih =>
    rw [List.nodup_cons] at hn
    rw [List.foldl_cons, ih _ hn.2]
    by_cases e : y = x
    · subst e; simp [hn.1]
    · simp only [List.mem_cons, e, false_or]
      split
      · exact State.meetLevel_local c _ _ _ (State.meetLevel_resource_other c s x y e) (State.meetLevel_confirmInputs c s x)
      · exact State.meetLevel_resource_other c s x y e

theorem State.meetLevels_report (xs : List ResNo) (s : State) (hn : xs.Nodup) (hy : y ∈ xs) (r : LineReport)
    (hr : r ∈ (State.meetLevel c s y).lineReports) : r ∈ (xs.foldl (State.meetLevel c) s).lineReports := by
  induction xs generalizing s with
  | nil => cases hy
  | cons x xs ih =>
    rw [List.nodup_cons] at hn
    rw [List.foldl_cons]
    rcases List.mem_cons.mp hy with rfl | hy
    · exact (State.meetLevels_rest c xs _).1.lineReports r hr
    · have hne : y ≠ x := fun e => hn.1 (e ▸ hy)
      rcases State.meetLevel_local_reports c (State.meetLevel c s x) s y (State.meetLevel_resource_other c s x y hne)
        (State.meetLevel_confirmInputs c s x) r hr with h | h
      · exact (State.meetLevels_rest c xs _).1.lineReports r ((State.meetLevel_rest c s x).lineReports r h)
      · exact ih _ hn.2 hy h
end

/-! ## Reports -/

/-- The taking of a current report runs its effect (R77). -/
theorem State.takeReport_current {s : State} {x : ResNo} {k : LineReportKind} {act : State → State}
    (h : s.oldestReport x k = some { resource := x, kind := k, current := true }) :
    s.takeReport x k act = (act (s.dropReport x)).endOfEvent := by
  unfold State.takeReport; rw [h]; rfl

theorem State.dropReport_outside (s : State) (x : ResNo) : s.SameOutsideClaimTable (s.dropReport x) :=
  ⟨rfl, rfl, rfl, rfl, rfl, rfl, rfl, rfl, rfl, rfl, rfl, rfl, rfl, rfl, rfl, rfl, rfl⟩

theorem State.endOfEvent_outside (s : State) : s.SameOutsideClaimTable s.endOfEvent := by constructor <;> simp

/-- The three beginnings of an engagement (R90). -/
theorem State.startEngage_spec (s : State) (x : ResNo) (d : LineDef) (st : LineState) (lu : PhaseRecord)
    (hk : s.kindOf x = some (.line d st lu)) :
    (∀ b, d.confirm = some b → s.engagedLevel b = true →
      (s.startEngage x).kindOf x = some (.line d st { lu with phase := .watch })
      ∧ { resource := x, kind := .engagedSeen, current := true } ∈ (s.startEngage x).lineReports)
    ∧ (∀ b, d.confirm = some b → s.engagedLevel b = false →
      (s.startEngage x).kindOf x = some (.line d st { lu with phase := .engage (s.now + b.timeout.toNat * 100) }))
    ∧ (d.confirm = none →
      (s.startEngage x).kindOf x = some (.line d st { lu with phase := .quiet })
      ∧ { resource := x, kind := .engagedSeen, current := true } ∈ (s.startEngage x).lineReports) := by
  obtain ⟨r, hr, hrk⟩ := State.kindOf_eq_some hk
  have hd : s.lineDef x = some d := by simp [State.lineDef, hr, hrk, Kind.lineDef]
  refine ⟨?_, ?_, ?_⟩
  · intro b hb he
    have : s.startEngage x = (s.order x fun _ lu => { lu with phase := .watch }).report x .engagedSeen := by
      unfold State.startEngage; simp [hd, hb, he]
    rw [this]
    refine ⟨?_, ?_⟩
    · rw [State.kindOf_report]; exact State.kindOf_order s x _ d st lu hk
    · simp [State.report]
  · intro b hb he
    have : s.startEngage x = s.order x fun d lu => { lu with phase := .engage (s.confirmEnds d) } := by
      unfold State.startEngage; simp [hd, hb, he]
    rw [this, State.kindOf_order s x _ d st lu hk]
    simp [State.confirmEnds, hb, msUnits, Config.unitsPerMs]
  · intro hb
    have : s.startEngage x = (s.order x fun _ lu => { lu with phase := .quiet }).report x .engagedSeen := by
      unfold State.startEngage; simp [hd, hb]
    rw [this]
    refine ⟨?_, ?_⟩
    · rw [State.kindOf_report]; exact State.kindOf_order s x _ d st lu hk
    · simp [State.report]

/-! ## Head claims -/

theorem State.headRequest_claim {s : State} {x : ResNo} {p : Port} {h : Handle} (e : s.headRequest x = some (p, h)) :
    ∃ c, s.headClaim x = some c ∧ c.state.handle = some h ∧ c.owner = p ∧ c ∈ s.claims ∧ c.resource = x
      ∧ c.state.isWaiting = true := by
  simp only [State.headRequest] at e
  cases hc : s.headClaim x with
  | none => rw [hc] at e; cases e
  | some c =>
    rw [hc] at e
    simp only [Option.bind_some, Option.map_eq_some_iff, Prod.mk.injEq] at e
    have hm : c ∈ s.waitQueue x := List.mem_of_head? hc
    simp [State.waitQueue] at hm
    obtain ⟨a, ha1, ha2, ha3⟩ := e
    exact ⟨c, rfl, ha3 ▸ ha1, ha2, hm.1, hm.2.1, hm.2.2⟩

/-- R33, R34: while an EXCLUSIVE claim stands on a resource, the request at the head of its queue is not ready. -/
theorem State.not_ready_of_exclusive {s : State} {x : ResNo} {a : Claim} (ha : a ∈ s.assigned x)
    (hm : a.mode = .exclusive) (p : Port) (h : Handle) (e : s.headRequest x = some (p, h)) : s.ready p h = false := by
  obtain ⟨c, hc, hh, ho, hmem, hres, hw⟩ := State.headRequest_claim e
  by_contra hr
  simp at hr
  have hcl := s.ready_clear p h hr c hmem (by simp [Claim.ofRequest, ho, hh])
  simp [State.assigned] at ha
  have := State.clear_compatible s c a hcl ha.1 (ha.2.1.trans hres.symm) ha.2.2
  rw [hm] at this
  cases this.2

/-! ## Mode notices -/

theorem State.foldl_notify_queue (m : DeviceMode) (q : Port) (ps : List Port) (s : State) (hn : ps.Nodup) :
    (ps.foldl (fun s p => s.notify p (.modeChanged m)) s).queue q =
      if q ∈ ps ∧ s.isOpen q = true then (s.queue q).add (.modeChanged m) else s.queue q := by
  induction ps generalizing s with
  | nil => simp
  | cons p ps ih =>
    rw [List.nodup_cons] at hn
    rw [List.foldl_cons, ih _ hn.2, State.queue_notify]
    have : (s.notify p (.modeChanged m)).isOpen q = s.isOpen q := (State.notify_tableEvent s p _).outside.isOpen q
    rw [this]
    by_cases e : p = q
    · subst e; simp [hn.1]
    · simp [e, Ne.symm e]

/-- R150: every open session, and no other, is told of a change of mode. -/
theorem State.queue_notifyMode (s : State) (m : DeviceMode) (q : Port) :
    (s.notifyMode m).queue q = if s.isOpen q = true then (s.queue q).add (.modeChanged m) else s.queue q := by
  unfold State.notifyMode
  rw [State.foldl_notify_queue m q _ s (List.nodup_finRange 6)]; simp

theorem State.notify_lineReports (s : State) (p : Port) (n : Notice) : (s.notify p n).lineReports = s.lineReports := by
  unfold State.notify; split <;> rfl

section
variable {α : Type} (f : α → Port) (g : α → Notice) (xs : List α) (s : State)

theorem State.foldl_notify_resources : (xs.foldl (fun s a => s.notify (f a) (g a)) s).resources = s.resources := by
  induction xs generalizing s with
  | nil => rfl
  | cons a xs ih => rw [List.foldl_cons, ih, State.notify_resources]

theorem State.foldl_notify_lineReports :
    (xs.foldl (fun s a => s.notify (f a) (g a)) s).lineReports = s.lineReports := by
  induction xs generalizing s with
  | nil => rfl
  | cons a xs ih => rw [List.foldl_cons, ih, State.notify_lineReports]
end

/-- A change of mode's notices touch no claim, slot, resource or report. -/
theorem State.notifyMode_table (s : State) (m : DeviceMode) : s.SameClaimTable (s.notifyMode m) := by
  unfold State.notifyMode
  refine ⟨?_, ?_, ?_, ?_⟩
  · exact State.foldl_notify_claims (fun p => p) (fun _ => .modeChanged m) _ s
  · exact State.foldl_notify_slots (fun p => p) (fun _ => .modeChanged m) _ s
  · exact State.foldl_notify_resources (fun p => p) (fun _ => .modeChanged m) _ s
  · exact State.foldl_notify_lineReports (fun p => p) (fun _ => .modeChanged m) _ s

end Sys2Proof.Machine
end

