-- ==== Sys2Proof/Laws/Evaluation.lean ====
section
/-! SUPPORT. What the end of a request leaves (R46, R48, R49), and what an evaluation cannot undo (R36, R38, R40): the
notices of ended requests, their absence from the pool, and the state of a faulted resource. -/

namespace Sys2Proof.Machine

/-! ## The end of a request -/

/-- The slot of a request that ends with an outcome; a slot without an open request stays as it is. -/
def Slot.ended (v : Slot) (o : SlotOutcome) : Slot :=
  match v with
  | .waiting f _ => .done f.incarnation o
  | .assembling f _ => .done f.incarnation o
  | v => v

theorem Slot.ended_done {v : Slot} (h : v.isOpen = true) (o : SlotOutcome) : ∃ n, v.ended o = .done n o := by
  cases v <;> first | exact ⟨_, rfl⟩ | cases h

theorem Slot.ended_closed {v : Slot} (h : v.isOpen = false) (o : SlotOutcome) : v.ended o = v := by
  cases v <;> first | rfl | cases h

theorem Slot.ended_isOpen (v : Slot) (o : SlotOutcome) : (v.ended o).isOpen = false := by cases v <;> rfl

/-- No claim of the pool belongs to the request. -/
def State.NoRequest (s : State) (p : Port) (h : Handle) : Prop := ∀ c ∈ s.claims, Claim.ofRequest p h c = false

section
variable (s : State) (p : Port) (h : Handle) (o : SlotOutcome) (n : Notice)

/-- The end of an open request, by its parts (R46, R48, R49). -/
theorem State.endRequest_open (ho : (s.slot p h).isOpen = true) :
    s.endRequest p h o n =
      ((s.removeClaims (Claim.ofRequest p h)).notify p n).setSlot p h ((s.slot p h).ended o) := by
  unfold State.endRequest
  cases hs : s.slot p h <;> rw [hs] at ho <;> first | rfl | cases ho

theorem State.endRequest_closed (ho : (s.slot p h).isOpen = false) : s.endRequest p h o n = s := by
  unfold State.endRequest
  cases hs : s.slot p h <;> rw [hs] at ho <;> first | rfl | cases ho

theorem State.endRequest_slot (q : Port) (k : Handle) :
    (s.endRequest p h o n).slot q k = if p = q ∧ h = k then (s.slot p h).ended o else s.slot q k := by
  cases ho : (s.slot p h).isOpen with
  | true =>
    rw [State.endRequest_open s p h o n ho]
    by_cases e : p = q ∧ h = k
    · obtain ⟨rfl, rfl⟩ := e; simp
    · simp only [State.slot_setSlot, e, if_false]
      simp [State.slot, State.notify_slots, State.removeClaims_slots]
  | false =>
    rw [State.endRequest_closed s p h o n ho, Slot.ended_closed ho]
    split
    · next e => rw [e.1, e.2]
    · rfl

theorem State.endRequest_claims :
    (s.endRequest p h o n).claims =
      if (s.slot p h).isOpen = true then s.claims.filter fun c => !Claim.ofRequest p h c else s.claims := by
  cases ho : (s.slot p h).isOpen with
  | true =>
    rw [State.endRequest_open s p h o n ho]
    simp [State.notify_claims, State.removeClaims_claims]
  | false => rw [State.endRequest_closed s p h o n ho]; simp

theorem State.endRequest_resource (x : ResNo) :
    (s.endRequest p h o n).resource x =
      if (s.slot p h).isOpen = true then (s.removeClaims (Claim.ofRequest p h)).resource x else s.resource x := by
  cases ho : (s.slot p h).isOpen with
  | true =>
    rw [State.endRequest_open s p h o n ho]
    simp [State.resource, State.notify_resources]
  | false => rw [State.endRequest_closed s p h o n ho]; simp

theorem State.endRequest_queue (q : Port) :
    (s.endRequest p h o n).queue q =
      if p = q ∧ s.isOpen p = true ∧ (s.slot p h).isOpen = true then (s.queue p).add n else s.queue q := by
  cases ho : (s.slot p h).isOpen with
  | true =>
    rw [State.endRequest_open s p h o n ho]
    have h1 : (s.removeClaims (Claim.ofRequest p h)).isOpen p = s.isOpen p :=
      (State.removeClaims_tableEvent s _).outside.isOpen p
    have h2 : ∀ q, (s.removeClaims (Claim.ofRequest p h)).queue q = s.queue q := by
      intro q; simp [State.queue, State.removeClaims_queues]
    simp [h1, h2]
  | false => rw [State.endRequest_closed s p h o n ho]; simp

/-- The outcome notice is there, where the session is open (R130). -/
theorem State.endRequest_hasNotice (ho : (s.slot p h).isOpen = true) (hp : s.isOpen p = true) :
    (s.endRequest p h o n).HasNotice p n := by
  refine ⟨{ seq := (s.queue p).nextSeq, notice := n, delivered := false }, ?_, rfl, rfl⟩
  rw [State.endRequest_queue, if_pos ⟨rfl, hp, ho⟩]
  exact (NoticeQueue.mem_add _ _ _).mpr (.inr rfl)

/-- A notice of another key, or for another port, stays. -/
theorem State.HasNotice.endRequest {m : Notice} {q : Port} (hm : s.HasNotice q m) (hk : p = q → n.key ≠ m.key) :
    (s.endRequest p h o n).HasNotice q m := by
  obtain ⟨e, he, hn, hd⟩ := hm
  refine ⟨e, ?_, hn, hd⟩
  rw [State.endRequest_queue]
  split
  · next hq => exact (NoticeQueue.mem_add _ _ _).mpr (.inl ⟨hq.1 ▸ he, by rw [hn]; exact fun h => hk hq.1 h.symm⟩)
  · exact he

theorem State.NoRequest.endRequest {q : Port} {k : Handle} (hr : s.NoRequest q k) :
    (s.endRequest p h o n).NoRequest q k := by
  intro c hc
  rw [State.endRequest_claims] at hc
  split at hc
  · exact hr c (List.mem_filter.mp hc).1
  · exact hr c hc

theorem State.endRequest_noRequest (ho : (s.slot p h).isOpen = true) : (s.endRequest p h o n).NoRequest p h := by
  intro c hc
  rw [State.endRequest_claims, if_pos ho] at hc
  simpa using (List.mem_filter.mp hc).2
end

/-! ## The failure of several requests (R48, R68, R70) -/

section
variable (x : ResNo) (reason : FailReason)

theorem State.failAll_cons (s : State) (r : Port × Handle) (rs : List (Port × Handle)) :
    s.failAll (r :: rs) x reason = (s.failRequest r.1 r.2 x reason).failAll rs x reason := rfl

theorem State.failAll_slot (rs : List (Port × Handle)) (s : State) (q : Port) (k : Handle) :
    (s.failAll rs x reason).slot q k = if (q, k) ∈ rs then (s.slot q k).ended .failed else s.slot q k := by
  induction rs generalizing s with
  | nil => simp [State.failAll]
  | cons r rs ih =>
    rw [State.failAll_cons, ih, State.failRequest, State.endRequest_slot]
    by_cases e : r.1 = q ∧ r.2 = k
    · obtain ⟨e1, e2⟩ := e
      have : (q, k) = r := by rw [← e1, ← e2]
      simp only [e1, e2, and_self, if_true, List.mem_cons, this, true_or]
      split
      · exact Slot.ended_closed (Slot.ended_isOpen _ _) _
      · rfl
    · have : ¬ (q, k) = r := fun h => e (by rw [← h]; exact ⟨rfl, rfl⟩)
      simp [e, this]

theorem State.NoRequest.failAll {q : Port} {k : Handle} (rs : List (Port × Handle)) {s : State} (h : s.NoRequest q k) :
    (s.failAll rs x reason).NoRequest q k := by
  induction rs generalizing s with
  | nil => exact h
  | cons r rs ih => rw [State.failAll_cons]; exact ih (h.endRequest _ _ _ _ _)

/-- A failed request has no claim left (R48). -/
theorem State.failAll_noRequest (rs : List (Port × Handle)) (s : State) (q : Port) (k : Handle) (hm : (q, k) ∈ rs)
    (ho : (s.slot q k).isOpen = true) : (s.failAll rs x reason).NoRequest q k := by
  induction rs generalizing s with
  | nil => cases hm
  | cons r rs ih =>
    rw [State.failAll_cons]
    by_cases e : (q, k) = r
    · subst e
      exact State.NoRequest.failAll x reason rs (State.endRequest_noRequest s q k _ _ ho)
    · refine ih _ ((List.mem_cons.mp hm).resolve_left e) ?_
      rw [State.failRequest, State.endRequest_slot, if_neg]
      · exact ho
      · rintro ⟨h1, h2⟩; exact e (by rw [← h1, ← h2])

/-- A notice stays that is no outcome notice of a failed request's handle. -/
theorem State.HasNotice.failAll {q : Port} {m : Notice} (rs : List (Port × Handle)) {s : State} (h : s.HasNotice q m)
    (hk : ∀ r ∈ rs, r.1 = q → NoticeKey.handle r.2 ≠ m.key) : (s.failAll rs x reason).HasNotice q m := by
  induction rs generalizing s with
  | nil => exact h
  | cons r rs ih =>
    rw [State.failAll_cons]
    refine ih (h.endRequest _ _ _ _ _ fun e => ?_) fun r' hr => hk r' (List.mem_cons_of_mem _ hr)
    exact hk r List.mem_cons_self e

/-- A failed request's FAILED notice is there, where its session is open (R48). -/
theorem State.failAll_hasNotice (rs : List (Port × Handle)) (s : State) (q : Port) (k : Handle) (hm : (q, k) ∈ rs)
    (ho : (s.slot q k).isOpen = true) (hq : s.isOpen q = true) :
    (s.failAll rs x reason).HasNotice q (.failed k x reason) := by
  induction rs generalizing s with
  | nil => cases hm
  | cons r rs ih =>
    have hopen : (s.failRequest r.1 r.2 x reason).isOpen q = true :=
      ((State.endRequest_tableEvent s r.1 r.2 _ _).outside.isOpen q).trans hq
    rw [State.failAll_cons]
    by_cases hmr : (q, k) ∈ rs ∧ (q, k) ≠ r
    · refine ih _ hmr.1 ?_ hopen
      rw [State.failRequest, State.endRequest_slot, if_neg]
      · exact ho
      · rintro ⟨h1, h2⟩; exact hmr.2 (by rw [← h1, ← h2])
    · have e : (q, k) = r := by
        rcases List.mem_cons.mp hm with h | h
        · exact h
        · by_contra hne; exact hmr ⟨h, hne⟩
      subst e
      have h1 := State.endRequest_hasNotice s q k .failed (.failed k x reason) ho hq
      have hcl : ((s.failRequest q k x reason).slot q k).isOpen = false := by
        rw [State.failRequest, State.endRequest_slot, if_pos ⟨rfl, rfl⟩]; exact Slot.ended_isOpen _ _
      clear ih hmr hm ho hopen
      change (s.failRequest q k x reason).HasNotice q (.failed k x reason) at h1
      generalize s.failRequest q k x reason = t at h1 hcl
      induction rs generalizing t with
      | nil => exact h1
      | cons r rs ih =>
        rw [State.failAll_cons]
        by_cases e : r.1 = q ∧ r.2 = k
        · have : t.failRequest r.1 r.2 x reason = t := by
            rw [e.1, e.2]; exact State.endRequest_closed t q k _ _ hcl
          rw [this]; exact ih t h1 hcl
        · refine ih _ (h1.endRequest _ _ _ _ _ fun e1 e2 => e ⟨e1, ?_⟩) ?_
          · simpa [Notice.key] using e2
          · rw [State.failRequest, State.endRequest_slot, if_neg e]; exact hcl

theorem State.failAll_claims_sublist (rs : List (Port × Handle)) (s : State) :
    (s.failAll rs x reason).claims.Sublist s.claims := by
  induction rs generalizing s with
  | nil => exact .refl _
  | cons r rs ih =>
    rw [State.failAll_cons]
    refine (ih _).trans ?_
    rw [State.failRequest, State.endRequest_claims]
    split
    · exact List.filter_sublist
    · exact .refl _

/-- A FAULTED resource stays FAULTED while requests fail (R44). -/
theorem State.failAll_faulted (rs : List (Port × Handle)) (s : State) (y : ResNo) (k : Kind) (hk : s.kindOf y = some k)
    (hf : k.isFaulted = true) : (s.failAll rs x reason).kindOf y = some k := by
  induction rs generalizing s with
  | nil => exact hk
  | cons r rs ih =>
    rw [State.failAll_cons]
    refine ih _ ?_
    rw [State.kindOf, State.failRequest, State.endRequest_resource, State.removeClaims_resource]
    obtain ⟨v, hv, rfl⟩ := State.kindOf_eq_some hk
    have hset : ∀ b t, v.kind.settled b t = v.kind := by
      intro b t
      rcases hkind : v.kind with ⟨sh, st⟩ | ⟨d, st, lu⟩ <;> rw [hkind] at hf <;> cases st <;>
        first | rfl | cases hf
    split
    · split
      · simp [hv, hset]
      · simp [hv]
    · simp [hv]
end

theorem State.mem_requestsWith {s : State} {sel : Claim → Bool} {q : Port} {k : Handle} :
    (q, k) ∈ s.requestsWith sel ↔ ∃ c ∈ s.claims, sel c = true ∧ c.owner = q ∧ c.state.handle = some k := by
  simp only [State.requestsWith, List.mem_filterMap, List.mem_filter, Option.map_eq_some_iff, Prod.mk.injEq]
  constructor
  · rintro ⟨c, ⟨h1, h2⟩, a, h3, h4, rfl⟩; exact ⟨c, h1, h2, h4, h3⟩
  · rintro ⟨c, h1, h2, h3, h4⟩; exact ⟨c, ⟨h1, h2⟩, k, h4, h3, rfl⟩

/-! ## Reservation -/

section
variable (imm : Option (Port × Handle)) (s : State) (p : Port) (h : Handle)

theorem State.grant_slot (q : Port) (k : Handle) (hne : ¬ (p = q ∧ h = k)) :
    (State.grant imm s p h).slot q k = s.slot q k := by
  unfold State.grant
  split
  · dsimp only
    split
    · simp only [State.slot_setSlot, hne, if_false]
      simp [State.slot, State.foldl_grantItem_slots]
    · simp only [State.slot_setSlot, hne, if_false]
      simp [State.slot, State.notify_slots, State.foldl_grantItem_slots]
  · rfl

theorem State.reserve_slot (q : Port) (k : Handle) (hne : ¬ (p = q ∧ h = k)) :
    (State.reserve imm s p h).slot q k = s.slot q k := by
  unfold State.reserve
  split
  · dsimp only
    split
    · rw [State.grant_slot _ _ _ _ _ _ hne]
      simp only [State.slot_setSlot, hne, if_false]
      simp [State.slot, State.foldl_beginItem_slots]
    · simp only [State.slot_setSlot, hne, if_false]
      simp [State.slot, State.foldl_beginItem_slots]
  · rfl

/-- The queues after a grant: at most the request's own session has one GRANTED notice more (R40). -/
theorem State.grant_queue (q : Port) :
    (State.grant imm s p h).queue q = s.queue q
    ∨ q = p ∧ ∃ xs, (State.grant imm s p h).queue q = (s.queue q).add (.granted h xs) := by
  unfold State.grant
  split
  · dsimp only
    have hq : ∀ (xs : List ResNo), (xs.foldl (fun s x => s.grantItem p h x) s).queue q = s.queue q := by
      intro xs; simp [State.queue, State.grants_queues]
    split
    · left; simpa using hq _
    · by_cases e : p = q
      · subst e
        simp only [State.queue_setSlot, State.queue_notify, hq]
        split
        · exact .inr ⟨trivial, _, rfl⟩
        · exact .inl rfl
      · left
        simp only [State.queue_setSlot, State.queue_notify, hq]
        rw [if_neg (fun h => e h.1)]
  · exact .inl rfl

theorem State.foldl_beginItem_lineOrder (xs : List ResNo) (s : State) :
    (xs.foldl (fun s x => s.beginItem p x) s).claims = s.claims
    ∧ (xs.foldl (fun s x => s.beginItem p x) s).queues = s.queues
    ∧ s.SameOutsideClaimTable (xs.foldl (fun s x => s.beginItem p x) s)
    ∧ ∀ y, y ∉ xs → (xs.foldl (fun s x => s.beginItem p x) s).resource y = s.resource y := by
  induction xs generalizing s with
  | nil => exact ⟨rfl, rfl, .refl s, fun _ _ => rfl⟩
  | cons x xs ih =>
    obtain ⟨a, b, c, d⟩ := ih (s.beginItem p x)
    have lo := State.beginItem_lineOrder s x p
    refine ⟨a.trans lo.claims, b.trans lo.queues, lo.outside.trans c, fun y hy => ?_⟩
    rw [List.mem_cons, not_or] at hy
    rw [List.foldl_cons, d y hy.2, lo.others y hy.1]

theorem State.reserve_queue (q : Port) :
    (State.reserve imm s p h).queue q = s.queue q
    ∨ q = p ∧ ∃ xs, (State.reserve imm s p h).queue q = (s.queue q).add (.granted h xs) := by
  unfold State.reserve
  split
  · dsimp only
    have hq : ∀ (xs : List ResNo) (t : State), t.queues = s.queues →
        (xs.foldl (fun s x => s.beginItem p x) t).queue q = s.queue q := by
      intro xs t ht; simp [State.queue, (State.foldl_beginItem_lineOrder p xs t).2.1, ht]
    split
    · rcases State.grant_queue imm _ p h q with hg | ⟨e, xs, hg⟩
      · left; rw [hg]; simp only [State.queue_setSlot]; exact hq _ _ rfl
      · right
        refine ⟨e, xs, ?_⟩
        rw [hg]; simp only [State.queue_setSlot]; exact congrArg (fun q => NoticeQueue.add q _) (hq _ _ rfl)
    · left; simp only [State.queue_setSlot]; exact hq _ _ rfl
  · exact .inl rfl

theorem State.grant_claim (c : Claim) (hc : c ∈ (State.grant imm s p h).claims) (hs : c.state.handle.isSome = true) :
    c ∈ s.claims := by
  unfold State.grant at hc
  split at hc
  · have key : ∀ (xs : List ResNo) (t : State), c ∈ (xs.foldl (fun s x => s.grantItem p h x) t).claims →
        c ∈ t.claims := by
      intro xs
      induction xs with
      | nil => intro t h; exact h
      | cons x xs ih =>
        intro t ht
        have : c ∈ (t.grantItem p h x).claims := ih _ ht
        unfold State.grantItem at this
        split at this
        · exact this
        · simp only [State.claims_setClaims, List.mem_map] at this
          obtain ⟨d, hd, rfl⟩ := this
          split at hs
          · cases hs
          · next hne => rw [if_neg hne]; exact hd
    dsimp only at hc
    split at hc
    · exact key _ _ hc
    · exact key _ _ (by simpa [State.notify_claims] using hc)
  · exact hc

/-- A reservation gives no claim a handle that its port did not have. -/
theorem State.reserve_claim (c : Claim) (q : Port) (k : Handle) (hc : c ∈ (State.reserve imm s p h).claims)
    (hs : Claim.ofRequest q k c = true) : ∃ d ∈ s.claims, Claim.ofRequest q k d = true := by
  have hsome : c.state.handle.isSome = true := by
    simp only [Claim.ofRequest, Bool.and_eq_true, beq_iff_eq] at hs; rw [hs.2]; rfl
  have key : c ∈ s.claims.map (fun c => if Claim.ofRequest p h c then { c with state := .reserved h } else c) →
      ∃ d ∈ s.claims, Claim.ofRequest q k d = true := by
    intro hm
    obtain ⟨d, hd, rfl⟩ := List.mem_map.mp hm
    split at hs
    · next hr =>
      refine ⟨d, hd, ?_⟩
      simp only [Claim.ofRequest, Bool.and_eq_true, beq_iff_eq, ClaimState.handle] at hs hr ⊢
      exact ⟨hs.1, by rw [hr.2, hs.2]⟩
    · exact ⟨d, hd, hs⟩
  unfold State.reserve at hc
  split at hc
  · dsimp only at hc
    split at hc
    · have hm := State.grant_claim imm _ p h c hc hsome
      rw [State.setSlot_claims, (State.foldl_beginItem_lineOrder p _ _).1] at hm
      exact key hm
    · rw [State.setSlot_claims, (State.foldl_beginItem_lineOrder p _ _).1] at hc
      exact key hc
  · exact ⟨c, hc, hs⟩
end

/-! ## What an evaluation keeps -/

section
variable (imm : Option (Port × Handle)) (s : State) (xs : List ResNo)

/-- A slot that is not WAITING is not touched by an evaluation (R35). -/
theorem State.evaluateWith_slot (q : Port) (k : Handle) (hs : (s.slot q k).isWaiting = false) :
    (s.evaluateWith imm xs).slot q k = s.slot q k := by
  refine State.evaluateFor_keeps (fun t => t.slot q k = s.slot q k) imm (fun t p h hr ht => ?_) _ _ s rfl
  rw [State.reserve_slot, ht]
  rintro ⟨rfl, rfl⟩
  have := t.ready_waiting p h hr
  rw [ht, hs] at this
  cases this

/-- A notice stays through an evaluation, unless it is keyed by the handle of a WAITING request (R40, R132). -/
theorem State.HasNotice.evaluateWith {q : Port} {m : Notice} (hm : s.HasNotice q m)
    (hk : ∀ k, m.key = .handle k → (s.slot q k).isWaiting = false) : (s.evaluateWith imm xs).HasNotice q m := by
  refine (State.evaluateFor_keeps
    (fun t => t.HasNotice q m ∧ ∀ k, m.key = .handle k → (t.slot q k).isWaiting = false) imm
    (fun t p h hr ⟨h1, h2⟩ => ⟨?_, ?_⟩) _ _ s ⟨hm, hk⟩).1
  · rcases State.reserve_queue imm t p h q with hq | ⟨rfl, ys, hq⟩
    · exact h1.congr hq
    · obtain ⟨e, he, hn, hd⟩ := h1
      refine ⟨e, ?_, hn, hd⟩
      rw [hq]
      refine (NoticeQueue.mem_add _ _ _).mpr (.inl ⟨he, ?_⟩)
      rw [hn]
      intro hkey
      have := h2 h hkey
      rw [t.ready_waiting _ h hr] at this
      cases this
  · intro k hkey
    by_cases e : p = q ∧ h = k
    · obtain ⟨rfl, rfl⟩ := e
      have := h2 h hkey
      rw [t.ready_waiting _ h hr] at this
      cases this
    · rw [State.reserve_slot _ _ _ _ _ _ e]; exact h2 k hkey

theorem State.NoRequest.evaluateWith {q : Port} {k : Handle} (h : s.NoRequest q k) :
    (s.evaluateWith imm xs).NoRequest q k := by
  refine State.evaluateFor_keeps (fun t => t.NoRequest q k) imm (fun t p h hr ht c hc => ?_) _ _ s h
  by_contra hcon
  obtain ⟨d, hd, hd2⟩ := State.reserve_claim imm t p h c q k hc (by simpa using hcon)
  rw [ht d hd] at hd2
  cases hd2
end

/-- No head claim is clear, and so no request ready, while the mode is not SERVICE (R33, R35). -/
theorem State.not_ready_of_mode {s : State} (hm : s.mode ≠ .service) {x : ResNo} (p : Port) (h : Handle)
    (e : s.headRequest x = some (p, h)) : s.ready p h = false := by
  obtain ⟨c, hc, hh, ho, hmem, hres, hw⟩ := State.headRequest_claim e
  by_contra hr
  simp at hr
  have := s.ready_clear p h hr c hmem (by simp [Claim.ofRequest, ho, hh])
  simp [State.clear, hm] at this

theorem State.evaluate_not_service (s : State) (xs : List ResNo) (hm : s.mode ≠ .service) : s.evaluate xs = s :=
  State.evaluate_idle s xs fun _ _ p h e => State.not_ready_of_mode hm p h e

/-- While a request's claims remain on a FAULTED resource it is not ready (R33). -/
theorem State.not_ready_of_faulted {s : State} {x : ResNo} {k : Kind} (hk : s.kindOf x = some k)
    (hf : k.isFaulted = true) (p : Port) (h : Handle) (c : Claim) (hc : c ∈ s.claims)
    (ho : Claim.ofRequest p h c = true) (hx : c.resource = x) : s.ready p h = false := by
  by_contra hr
  simp at hr
  have := s.ready_clear p h hr c hc ho
  simp [State.clear, hx, hk, hf] at this

end Sys2Proof.Machine
end

