-- ==== Sys2Proof/WellFormed.lean ====
section
/-! DEFINITION. Which commands are well formed.

Ports, resources, handles and inputs are bounded by their types. The one relation between operands is that only a
passage to space can be a start bit (R160); a command that breaks it still runs, its `startBit` being ignored. -/

namespace Sys2Proof

/-- A command's operands agree with one another (R160). -/
def Instr.wellFormed : Instr → Bool
  | .receiveLineChange _ space startBit => space || !startBit
  | _ => true

end Sys2Proof
end

