-- ==== Sys2Proof/Laws/PerInstr.lean ====
section
/-! SUPPORT. One lemma for each command of the family of LAWS.json: a command is well formed, but for a passage of a
receive line to mark that is said to be a start bit (R160). -/

namespace Sys2Proof.Laws

/-- What the check of WellFormed says of a command. -/
def WellFormedness.Statement (i : Instr) : Prop :=
  i.wellFormed = true ∨ ∃ p, i = .receiveLineChange p false true

theorem WellFormedness.join (a : Port) : WellFormedness.Statement (.join a) := .inl rfl
theorem WellFormedness.leave (a : Port) : WellFormedness.Statement (.leave a) := .inl rfl
theorem WellFormedness.touch (a : Port) : WellFormedness.Statement (.touch a) := .inl rfl
theorem WellFormedness.setRate (a : Port) : WellFormedness.Statement (.setRate a) := .inl rfl
theorem WellFormedness.claim (a : Port) : WellFormedness.Statement (.claim a) := .inl rfl
theorem WellFormedness.cancel (a : Port) : WellFormedness.Statement (.cancel a) := .inl rfl
theorem WellFormedness.release (a : Port) : WellFormedness.Statement (.release a) := .inl rfl
theorem WellFormedness.fetch (a : Port) : WellFormedness.Statement (.fetch a) := .inl rfl
theorem WellFormedness.sessionInfo (a : Port) : WellFormedness.Statement (.sessionInfo a) := .inl rfl
theorem WellFormedness.resourceInfo (a : Port) : WellFormedness.Statement (.resourceInfo a) := .inl rfl
theorem WellFormedness.holdings (a : Port) : WellFormedness.Statement (.holdings a) := .inl rfl
theorem WellFormedness.partInfo (a : Port) : WellFormedness.Statement (.partInfo a) := .inl rfl
theorem WellFormedness.define (a : Port) : WellFormedness.Statement (.define a) := .inl rfl
theorem WellFormedness.undefine (a : Port) : WellFormedness.Statement (.undefine a) := .inl rfl
theorem WellFormedness.setLimits (a : Port) : WellFormedness.Statement (.setLimits a) := .inl rfl
theorem WellFormedness.setMode (a : Port) : WellFormedness.Statement (.setMode a) := .inl rfl
theorem WellFormedness.setSupervisor (a : Port) : WellFormedness.Statement (.setSupervisor a) := .inl rfl
theorem WellFormedness.forceRelease (a : Port) : WellFormedness.Statement (.forceRelease a) := .inl rfl
theorem WellFormedness.disable (a : Port) : WellFormedness.Statement (.disable a) := .inl rfl
theorem WellFormedness.clearFault (a : Port) : WellFormedness.Statement (.clearFault a) := .inl rfl
theorem WellFormedness.sever (a : Port) : WellFormedness.Statement (.sever a) := .inl rfl
theorem WellFormedness.restart (a : Port) : WellFormedness.Statement (.restart a) := .inl rfl
theorem WellFormedness.frameComplete (a : Port) : WellFormedness.Statement (.frameComplete a) := .inl rfl
theorem WellFormedness.silenceLimit (a : Port) : WellFormedness.Statement (.silenceLimit a) := .inl rfl
theorem WellFormedness.takeRequest (a : Port) : WellFormedness.Statement (.takeRequest a) := .inl rfl
theorem WellFormedness.replySent (a : Port) : WellFormedness.Statement (.replySent a) := .inl rfl
theorem WellFormedness.breakDetected (a : Port) : WellFormedness.Statement (.breakDetected a) := .inl rfl
theorem WellFormedness.frameReport (a : Port) : WellFormedness.Statement (.frameReport a) := .inl rfl
theorem WellFormedness.windowExpiry (a : Port) : WellFormedness.Statement (.windowExpiry a) := .inl rfl
theorem WellFormedness.severInputChange (a : Port) (b : Bool) : WellFormedness.Statement (.severInputChange a b) :=
  .inl rfl
theorem WellFormedness.severInputFiltered (a : Port) : WellFormedness.Statement (.severInputFiltered a) := .inl rfl
theorem WellFormedness.liveAgain (a : Port) : WellFormedness.Statement (.liveAgain a) := .inl rfl
theorem WellFormedness.outcomeAcknowledged (a : Port) (b : Handle) : WellFormedness.Statement (.outcomeAcknowledged a b) :=
  .inl rfl
theorem WellFormedness.noClaimsRemain : WellFormedness.Statement .noClaimsRemain := .inl rfl
theorem WellFormedness.waitExpiry (a : Port) (b : Handle) : WellFormedness.Statement (.waitExpiry a b) := .inl rfl
theorem WellFormedness.holdExpiry (a : Port) (b : ResNo) : WellFormedness.Statement (.holdExpiry a b) := .inl rfl
theorem WellFormedness.graceExpiry (a : Port) (b : ResNo) : WellFormedness.Statement (.graceExpiry a b) := .inl rfl
theorem WellFormedness.phaseTimerExpiry (a : ResNo) : WellFormedness.Statement (.phaseTimerExpiry a) := .inl rfl
theorem WellFormedness.confirmInputChange (a : ConfNo) (b : Bool) : WellFormedness.Statement (.confirmInputChange a b) :=
  .inl rfl
theorem WellFormedness.confirmFilterChange (a : ConfNo) : WellFormedness.Statement (.confirmFilterChange a) := .inl rfl
theorem WellFormedness.guardElapsed (a : ResNo) : WellFormedness.Statement (.guardElapsed a) := .inl rfl
theorem WellFormedness.releaseSeen (a : ResNo) : WellFormedness.Statement (.releaseSeen a) := .inl rfl
theorem WellFormedness.verifyTimeout (a : ResNo) : WellFormedness.Statement (.verifyTimeout a) := .inl rfl
theorem WellFormedness.engagedSeen (a : ResNo) : WellFormedness.Statement (.engagedSeen a) := .inl rfl
theorem WellFormedness.engageTimeout (a : ResNo) : WellFormedness.Statement (.engageTimeout a) := .inl rfl
theorem WellFormedness.confirmationLost (a : ResNo) : WellFormedness.Statement (.confirmationLost a) := .inl rfl
theorem WellFormedness.pinReset : WellFormedness.Statement .pinReset := .inl rfl
theorem WellFormedness.characterReceived (a : Port) (b : Byte) : WellFormedness.Statement (.characterReceived a b) :=
  .inl rfl
theorem WellFormedness.framingError (a : Port) : WellFormedness.Statement (.framingError a) := .inl rfl
theorem WellFormedness.receiveLineChange (a : Port) (b c : Bool) : WellFormedness.Statement (.receiveLineChange a b c) := by
  cases b
  · cases c
    · exact .inl rfl
    · exact .inr ⟨a, rfl⟩
  · exact .inl rfl

end Sys2Proof.Laws
end

