-- ==== Sys2Proof/Tests/Slice0.lean ====
section
/-! SUPPORT. The model's own tests: the check of WellFormed, the manual's worked figures, one or two single steps for
each command with the outcome the rules give, and for each statement with hypotheses a state that meets them. -/

/- One kernel evaluation at a time: each would otherwise hold a thread of its own. -/
set_option Elab.async false

namespace Sys2Proof.Tests
open Sys2Proof.Machine

/-! ## Helpers -/

/-- The state after a command. -/
def after (i : Instr) (s : State) : State :=
  match exec i s with
  | .next t => t
  | _ => s

/-- A request frame of a kind. -/
def frame (k : RequestKind) (inc : Byte) (body : List Byte) : Frame :=
  { kind := k.code, tag := 9, inc := inc, body := body, stamp := 0 }

/-- The request stands in the check stage of its port, whose turn it is at every block. -/
def offer (k : RequestKind) (p : Port) (body : List Byte) (s : State) : State :=
  let q := Fin.ofNat 6 (p.val + 5)
  { s.setPort p { s.port p with checkStage := some (frame k (s.incarnation p) body) } with
    servedCT := q, servedSC := q, servedNS := q, servedSV := q }

theorem turn : ∀ p : Port, portAfter (Fin.ofNat 6 (p.val + 5)) 0 = p := by decide

theorem offer_offered (k : RequestKind) (p : Port) (body : List Byte) (s : State) :
    (offer k p body s).Offered k p (frame k (s.incarnation p) body) := by
  have hport : ((offer k p body s).port p).checkStage = some (frame k (s.incarnation p) body) := by
    simp [offer, State.port, State.setPort]
  refine ⟨hport, rfl, ?_⟩
  have hoff : (offer k p body s).offers k.owner p = true := by
    unfold State.offers; rw [hport]; cases k <;> rfl
  have hp : ∀ o, o ≠ .portInterface → portAfter ((offer k p body s).served o) 0 = p := by
    intro o ho
    cases o <;> first | exact absurd rfl ho | exact turn p
  unfold State.mayTake State.nextServed
  split
  · rfl
  · rename_i hne
    have h0 := hp k.owner (by simpa using hne)
    simp [List.range_succ_eq_map, h0, hoff]

theorem offer_openFor (k : RequestKind) (p : Port) (body : List Byte) {s : State} (h : s.isOpen p = true) :
    (offer k p body s).OpenFor p (frame k (s.incarnation p) body) := ⟨h, rfl⟩

/-- The reply that a port sent last, without SYNC, LENGTH and CRC. -/
def answer (p : Port) (s : State) : List Byte :=
  (((s.port p).replies.getLast?.map Reply.bytes).getD []).drop 2 |>.dropLast.dropLast

/-- STATUS and body of that reply. -/
def verdict (p : Port) (s : State) : List Byte := (answer p s).drop 3 |>.eraseIdx 1

def opened : OpenSession := { clientId := 0x1234, keepalive := 1000, windowEnds := 100000 }

def live (inc : Byte) : Session := { incarnation := inc, state := .live opened }

def token (shareable : Bool) (st : TokenState) : Option Resource :=
  some { label := 7, holdLimit := 0, yieldGrace := 5, grantNumber := 0, kind := .token shareable st }

def lineDef : LineDef :=
  { firstLine := 0, width := 2, idle := 0, drive := Vector.replicate 6 1, guard := 20
    confirm := some { input := 0, engagedHigh := true, timeout := 5 } }

def line (st : LineState) (lu : PhaseRecord) : Option Resource :=
  some { label := 8, holdLimit := 0, yieldGrace := 5, grantNumber := 0, kind := .line lineDef st lu }

def quiet : PhaseRecord := { applied := none, phase := .quiet }

/-- Ports 0 to 2 LIVE, port 3 LAPSED, port 4 SEVERED, port 5 IDLE; TOKEN resources 0 and 1, the latter shareable, and
the LINE resource 2. -/
def base : State :=
  ((((((((({ State.reset with mode := .service } : State).setSession 0 (live 1)).setSession 1 (live 1)).setSession 2
    (live 255)).setSession 3
      { incarnation := 4, state := .lapsed opened { frameSeen := false, missCount := 1, streak := 0 } }).setSession 4
        { incarnation := 2, state := .severed { reason := .pin, incarnation := 2, clientId := 3, holdings := 1, requests := 0 } }).setResource
          0 (token false .vacant)).setResource 1 (token true .vacant)).setResource 2 (line .vacant quiet))

def held (p : Port) (x : ResNo) (ph : HoldPhase) : Claim :=
  { owner := p, resource := x, mode := .exclusive, state := .held 3 ph }

def waiting (p : Port) (h : Handle) (x : ResNo) : Claim :=
  { owner := p, resource := x, mode := .exclusive, state := .waiting h }

def reserved (p : Port) (h : Handle) (x : ResNo) : Claim :=
  { owner := p, resource := x, mode := .exclusive, state := .reserved h }

def filing (inc : Byte) (xs : List ResNo) : Filing :=
  { incarnation := inc, items := xs.map fun x => { resource := x, mode := .exclusive }, waitLimit := 3 }

/-- Port 1 holds resource 0, and port 2 waits for it. -/
def contended (ph : HoldPhase) : State :=
  ((base.setResource 0 (token false .occupied)).setClaims [held 1 0 ph, waiting 2 7 0]).setSlot 2 7
    (.waiting (filing 255 [0]) (some 50))

/-- Port 1 has resource 2 reserved in a state of its handover. -/
def handover (st : LineState) (lu : PhaseRecord) : State :=
  ((base.setResource 2 (line st lu)).setClaims [reserved 1 0 2]).setSlot 1 0 (.assembling (filing 1 [2]) [2])

/-- The body of a CLAIM. -/
def claimBody (h : Byte) (items : List (Byte × Byte)) : List Byte :=
  [h, 0, 0, byteOf items.length] ++ items.flatMap fun i => [i.1, i.2]

def backs (v : Slot) (c : Claim) : Bool :=
  match v with
  | .waiting f _ => c.state.isWaiting && (f.items.map Item.resource).contains c.resource
  | .assembling f _ => c.state.isReserved && (f.items.map Item.resource).contains c.resource
  | _ => false

theorem backs_sound {v : Slot} {c : Claim} (h : backs v c = true) : v.Backs c := by
  cases v <;> simp [backs, Slot.Backs] at h ⊢ <;> exact h

theorem tableLaw_of (s : State)
    (backed : (s.claims.all fun c => (c.state.handle.map fun h => backs (s.slot c.owner h) c).getD true) = true)
    (items : ∀ p h, ∀ i ∈ (s.slot p h).items, ∃ c ∈ s.claims, Claim.ofRequest p h c = true ∧ c.resource = i.resource)
    (open_ : ∀ p h, (s.slot p h).isOpen = true → (s.slot p h).items ≠ [])
    (defined : ∀ c ∈ s.claims, (s.resource c.resource).isSome = true)
    (mode : s.mode = .setup → s.claims = []) (drained : true ∉ s.drainReports) : s.TableLaw where
  backed c hc h hh := by
    have := List.all_eq_true.mp backed c hc
    rw [hh] at this
    exact backs_sound this
  items := items
  open_ := open_
  defined := defined
  setup := mode
  drained h := absurd h drained

theorem only {α : Type} {P : α → Prop} {o : Option α} {a : α} (h : o = some a) (hp : P a) : ∀ k, o = some k → P k := by
  rintro k hk
  rw [h] at hk
  cases hk
  exact hp

/-! ## Well-formedness -/

theorem test_wellFormed_refuses_start_bit_at_mark : (Instr.receiveLineChange 0 false true).wellFormed = false := by decide
theorem test_wellFormed_takes_start_bit_at_space : (Instr.receiveLineChange 0 true true).wellFormed = true := by decide

/-! ## Figures of the manual -/

/-- R164: the check value of the CRC. -/
theorem test_crc_check :
    crc [0x31, 0x32, 0x33, 0x34, 0x35, 0x36, 0x37, 0x38, 0x39] = 0x4B37 := by decide +kernel

theorem test_no_word_spells_a_command : decodeTableWord 8 1 = none := by decide

/-- R159, R20: what PART_INFO reports after a pin reset. -/
theorem test_reset_figures :
    State.reset.partInfoBody 0 = [0, 0, 0, 192, 3, 2, 10] := by decide

/-- Section 9.6: the two-item CLAIM on the line, 15 characters. -/
theorem test_claim_example_frame :
    (requestFrame 0x10 7 1 [0x02, 0x88, 0x13, 0x02, 0x14, 0x00, 0x03, 0x01]).take 13 =
      [0x5A, 0x0B, 0x10, 7, 1, 0x02, 0x88, 0x13, 0x02, 0x14, 0x00, 0x03, 0x01]
    ∧ (requestFrame 0x10 7 1 [0x02, 0x88, 0x13, 0x02, 0x14, 0x00, 0x03, 0x01]).length = 15 := by decide +kernel

/-- Section 9.6: its items and its wait limit. -/
theorem test_claim_example_items :
    (frame .claim 1 [0x02, 0x88, 0x13, 0x02, 0x14, 0x00, 0x03, 0x01]).items =
      [{ resource := 20, mode := .exclusive }, { resource := 3, mode := .shared }]
    ∧ (frame .claim 1 [0x02, 0x88, 0x13, 0x02, 0x14, 0x00, 0x03, 0x01]).word 1 = 5000 := by decide

/-- R189: the GRANTED record of that CLAIM. -/
theorem test_granted_record_example :
    grantedRecord 2 [(20, 74), (3, 19)] = [0x02, 0x02, 0x14, 0x4A, 0x00, 0x03, 0x13, 0x00] := by decide

/-- Section 4.9: port 1's pattern 5 drives lines 4 and 6 high, and the idle pattern all three low. -/
theorem test_line_levels_example :
    let d : LineDef := { firstLine := 4, width := 3, idle := 0, drive := #v[1, 5, 3, 1, 1, 1], guard := 500, confirm := none }
    let r : PhaseRecord → Resource := fun lu =>
      { label := 0, holdLimit := 0, yieldGrace := 0, grantNumber := 73, kind := .line d .held lu }
    ([3, 4, 5, 6, 7].map (r { applied := some 1, phase := .watch }).drives =
      [none, some .high, some .low, some .high, none])
    ∧ [4, 5, 6].map (r quiet).drives = [some .low, some .low, some .low] := by decide

theorem test_base_table : base.TableLaw :=
  tableLaw_of _ (by decide) (by decide) (by decide) (by decide) (by decide) (by decide)
theorem test_contended_table : (contended .overtime).TableLaw :=
  tableLaw_of _ rfl (by decide) (by decide) (by decide) (by decide) (by decide)
theorem test_handover_table : (handover .engage quiet).TableLaw :=
  tableLaw_of _ (by decide) (by decide) (by decide) (by decide) (by decide) (by decide)

/-! ## One step of each request -/

/-- R107, R192: a JOIN on an IDLE port. -/
theorem test_join : verdict 5 (after (.join 5) (offer .join 5 [0x34, 0x12, 0xE8, 0x03] base)) =
    [0, 1, 0xE8, 0x03, 0, 0] := by decide +kernel
/-- R107, R102: a JOIN on a SEVERED port reports the sever and advances the incarnation. -/
theorem test_join_reports_sever : verdict 4 (after (.join 4) (offer .join 4 [0x34, 0x12, 0xE8, 0x03] base)) =
    [0, 3, 0xE8, 0x03, 0, 2, 2, 3, 0, 1, 0] := by decide +kernel
/-- R111: LEAVE of a holder. -/
theorem test_leave : verdict 1 (after (.leave 1) (offer .leave 1 [] (contended .unlimited))) = [0, 1, 0]
    ∧ ((after (.leave 1) (offer .leave 1 [] (contended .unlimited))).session 1).state = .idle := by decide +kernel
theorem test_touch : answer 1 (after (.touch 1) (offer .touch 1 [] base)) = [0x83, 9, 1, 0, 0x40] := by decide +kernel
/-- R175: the rate is pending until the reply has gone. -/
theorem test_setRate : verdict 1 (after (.setRate 1) (offer .setRate 1 [3] base)) = [0, 3]
    ∧ ((after (.setRate 1) (offer .setRate 1 [3] base)).port 1).rate = .r115200 := by decide +kernel
/-- R31, R189: a CLAIM granted in its acceptance event. -/
theorem test_claim_granted :
    verdict 1 (after (.claim 1) (offer .claim 1 (claimBody 2 [(1, 1), (0, 0)]) base)) =
      [2, 2, 2, 1, 1, 0, 0, 1, 0] := by decide +kernel
/-- R62: section 3.9 at 2500 ms: a CLAIM of an overtime resource makes its holder yield. -/
theorem test_claim_makes_holder_yield :
    let s := base.setResource 0 (token false .occupied) |>.setClaims [held 1 0 .overtime]
    verdict 2 (after (.claim 2) (offer .claim 2 (claimBody 2 [(0, 0)]) s)) = [1, 2]
    ∧ ((after (.claim 2) (offer .claim 2 (claimBody 2 [(0, 0)]) s)).queue 1).entries =
      [{ seq := 1, notice := .yieldDue 0 3 5, delivered := false }] := by decide +kernel
theorem test_cancel :
    verdict 2 (after (.cancel 2) (offer .cancel 2 [7] (contended .unlimited))) = [0]
    ∧ (after (.cancel 2) (offer .cancel 2 [7] (contended .unlimited))).claims = [held 1 0 .unlimited] := by decide +kernel
/-- R58, R40: a release that grants the waiting request. -/
theorem test_release_grants_waiter :
    let t := after (.release 1) (offer .release 1 [0, 3, 0] (contended .unlimited))
    verdict 1 t = [0] ∧ (t.queue 2).entries = [{ seq := 1, notice := .granted 7 [(0, 1)], delivered := false }]
    ∧ t.slot 2 7 = .done 255 .granted := by decide +kernel
/-- Section 2.8: the release of resource 7 reserves and grants A, and leaves B blocked behind it. -/
theorem test_release_example :
    let c : Port → ResNo → ClaimMode → ClaimState → Claim := fun p x m st =>
      { owner := p, resource := x, mode := m, state := st }
    let f : List Item → Filing := fun is => { incarnation := 1, items := is, waitLimit := 0 }
    let r : Bool → Word16 → Resource := fun sh g =>
      { label := 0, holdLimit := 0, yieldGrace := 0, grantNumber := g, kind := .token sh .occupied }
    let a : List Item := [{ resource := 7, mode := .exclusive }, { resource := 3, mode := .shared }]
    let b : List Item := [{ resource := 3, mode := .exclusive }]
    let s := (((((((base.setSession 4 (live 1)).setSession 5 (live 1)).setResource 3 (some (r true 18))).setResource 7
      (some (r false 41))).setClaims
        [c 2 3 .shared (.held 18 .unlimited), c 1 7 .exclusive (.held 41 .unlimited),
         c 4 7 .exclusive (.waiting 0), c 4 3 .shared (.waiting 0), c 5 3 .exclusive (.waiting 2)]).setSlot 4 0
          (.waiting (f a) none)).setSlot 5 2 (.waiting (f b) none))
    let t := after (.release 1) (offer .release 1 [7, 41, 0] s)
    t.claims = [c 2 3 .shared (.held 18 .unlimited), c 4 7 .exclusive (.held 42 .unlimited),
      c 4 3 .shared (.held 19 .unlimited), c 5 3 .exclusive (.waiting 2)]
    ∧ (t.queue 4).entries = [{ seq := 1, notice := .granted 0 [(7, 42), (3, 19)], delivered := false }]
    ∧ t.slot 4 0 = .done 1 .granted := by decide +kernel
/-- Section 6.5: FETCH with ack 1 removes the MODE entry and delivers the YIELD entry (R190). -/
theorem test_fetch_example :
    let q : NoticeQueue :=
      { entries := [{ seq := 1, notice := .modeChanged .service, delivered := true },
          { seq := 2, notice := .yieldDue 40 11 300, delivered := false }]
        nextSeq := 3, incarnation := 1 }
    verdict 2 (after (.fetch 2) (offer .fetch 2 [1, 0, 0] (base.setQueue 2 q))) =
      [0, 1, 0, 1, 2, 0, 1, 40, 5, 5, 40, 11, 0, 0x2C, 1] := by decide +kernel
/-- Section 6.5: FETCH with an acknowledgement number that no entry carries removes nothing. -/
theorem test_fetch_unknown_ack :
    let q : NoticeQueue :=
      { entries := [{ seq := 3, notice := .revoked 40 11 .overtime, delivered := false }], nextSeq := 4, incarnation := 1 }
    verdict 2 (after (.fetch 2) (offer .fetch 2 [2, 0, 0] (base.setQueue 2 q))) =
      [0, 0, 0, 1, 3, 0, 1, 40, 6, 4, 40, 11, 0, 0] := by decide +kernel
theorem test_sessionInfo : verdict 3 (after (.sessionInfo 3) (offer .sessionInfo 3 [] base)) =
    [0, 2, 4, 0x34, 0x12, 0xE8, 0x03, 0xE8, 0x03, 0, 1, 0] ++ List.replicate 16 0 ++ [0, 0, 0] := by decide +kernel
theorem test_resourceInfo : verdict 1 (after (.resourceInfo 1) (offer .resourceInfo 1 [0] (contended .unlimited))) =
    [0, 0, 0, 7, 0, 0, 0, 0, 5, 0, 1, 0, 0, 0, 0, 0, 1, 1, 0, 2, 3, 0, 1, 2, 7, 0] := by decide +kernel
theorem test_holdings : verdict 1 (after (.holdings 1) (offer .holdings 1 [0] (contended .overtime))) =
    [0, 1, 0xFF, 0, 0, 2, 2, 3, 0] := by decide +kernel
theorem test_partInfo : verdict 5 (after (.partInfo 5) (offer .partInfo 5 [] base)) =
    [0, 5, 1, 0, 192, 3, 2, 10] := by decide +kernel

/-- Section 9.10: the DEFINE of resource 20 with width 9, from port 0 in SERVICE and in SETUP. -/
def exampleDefine (width : Byte) : List Byte :=
  [20, 1, 5, 0, 0, 0, 0, 0, 0, 4, width, 0, 1, 5, 3, 1, 1, 1, 0xF4, 1, 3, 1, 200, 0]
theorem test_define_example_refusals :
    let s := { base with mode := .setup }.setResource 20 (line .cooling quiet)
    verdict 0 (after (.define 0) (offer .define 0 (exampleDefine 9) { s with mode := .service })) = [0x31]
    ∧ verdict 0 (after (.define 0) (offer .define 0 (exampleDefine 9) s)) = [0x12]
    ∧ verdict 0 (after (.define 0) (offer .define 0 (exampleDefine 3) s)) = [0x42] := by decide +kernel
/-- Section 4.9: its resource as DEFINE writes it (R14). -/
theorem test_define :
    let t := after (.define 0) (offer .define 0 (exampleDefine 3) { base with mode := .setup })
    verdict 0 t = [0] ∧ t.kindOf 20 = some (.line
      { firstLine := 4, width := 3, idle := 0, drive := #v[1, 5, 3, 1, 1, 1], guard := 500
        confirm := some { input := 3, engagedHigh := true, timeout := 200 } }
      .cooling { applied := none, phase := .guard 500 }) := by decide +kernel
theorem test_undefine :
    let t := after (.undefine 0) (offer .undefine 0 [1] { base with mode := .setup })
    verdict 0 t = [0] ∧ t.resource 1 = none := by decide +kernel
/-- R116: a new threshold of 1 severs the LAPSED port 3. -/
theorem test_setLimits :
    let t := after (.setLimits 0) (offer .setLimits 0 [1, 2, 10] { base with mode := .setup })
    verdict 0 t = [0, 1, 2, 10] ∧ (t.session 3).state =
      .severed { reason := .keepalive, incarnation := 4, clientId := 0x1234, holdings := 0, requests := 0 } := by
  decide +kernel
/-- Section 7.9: SET_MODE QUIESCE withdraws the waiting request, and the mode stays QUIESCE. -/
theorem test_setMode_example :
    let t := after (.setMode 0) (offer .setMode 0 [2] (contended .unlimited))
    verdict 0 t = [0, 1, 2] ∧ t.slot 2 7 = .done 255 .withdrawn ∧ t.freeCount = 191
    ∧ (t.queue 2).entries.map Entry.notice = [.modeChanged .quiesce, .withdrawn 7] := by decide +kernel
theorem test_setSupervisor : (after (.setSupervisor 0) (offer .setSupervisor 0 [5] base)).supervisor = 5 := by
  decide +kernel
theorem test_forceRelease :
    let t := after (.forceRelease 0) (offer .forceRelease 0 [0] (contended .unlimited))
    (t.queue 1).entries.map Entry.notice = [.revoked 0 3 .supervisor] ∧ t.slot 2 7 = .done 255 .granted := by
  decide +kernel
theorem test_disable :
    let t := after (.disable 0) (offer .disable 0 [0] (contended .unlimited))
    (t.queue 1).entries.map Entry.notice = [.revoked 0 3 .disabled]
    ∧ (t.queue 2).entries.map Entry.notice = [.failed 7 0 .disabled]
    ∧ t.kindOf 0 = some (.token false .faulted) ∧ t.claims = [] := by decide +kernel
theorem test_clearFault :
    (after (.clearFault 0) (offer .clearFault 0 [2] (base.setResource 2 (line (.faulted .confirmLost) quiet)))).kindOf 2 =
      some (.line lineDef .cooling { applied := none, phase := .guard 20 }) := by decide +kernel
theorem test_sever :
    let t := after (.sever 0) (offer .sever 0 [2] (contended .unlimited))
    verdict 0 t = [0, 0, 1] ∧ (t.session 2).state =
      .severed { reason := .supervisor, incarnation := 255, clientId := 0x1234, holdings := 0, requests := 1 } := by
  decide +kernel
theorem test_restart :
    let t := after (.restart 0) (offer .restart 0 [] (contended .unlimited))
    verdict 0 t = [0, 4, 2] ∧ t.claims = [] ∧ t.mode = .setup ∧ t.kindOf 0 = some (.token false .vacant) := by
  decide +kernel

/-! ## One step of each event -/

def sent : Frame := frame .touch 1 []

def withPort (p : Port) (f : PortInterface → PortInterface) (s : State) : State := s.setPort p (f (s.port p))

theorem test_frameComplete :
    ((after (.frameComplete 1) (withPort 1 (fun q => { q with goodFrames := [sent], inbound := [sent, sent] }) base)).port
      1).inbound.length = 2 := by decide +kernel
theorem test_silenceLimit :
    ((after (.silenceLimit 1) (withPort 1 (fun q => { q with rx := .length, silence := some 35 }) base)).port 1).rx =
      .hunt := by decide +kernel
/-- R185: an unknown kind 0x85 is answered with KIND 0x05 and UNKNOWN_KIND. -/
theorem test_takeRequest_unknown :
    answer 1 (after (.takeRequest 1) (withPort 1 (fun q => { q with inbound := [{ sent with kind := 0x85 }] }) base)) =
      [0x05, 9, 1, 0x10, 0x40] := by decide +kernel
/-- Section 8.9: nothing is taken while a rate is pending. -/
theorem test_takeRequest_waits :
    let s := withPort 1 (fun q => { q with inbound := [sent], pendingRate := some .r921600 }) base
    after (.takeRequest 1) s = s := by decide +kernel
theorem test_replySent :
    ((after (.replySent 1) (withPort 1 (fun q =>
      { q with replies := [{ bytes := [], appliesRate := true }], pendingRate := some .r921600 }) base)).port 1).rate =
        .r921600 := by decide +kernel
/-- The line of port 1 at the times given: 0x5A in transmission from the moment 0, sampled each 10 µs (R160). -/
def sending : State :=
  withPort 1 (fun q => { q with replies := [{ bytes := [0x5A, 0], appliesRate := false }], begins := some 0 }) base
theorem test_txd_character :
    [0, 1, 2, 3, 4, 5, 7, 8, 9].map (fun t => (sending.port 1).txMark (momentOf t)) =
      [false, false, true, false, true, true, false, true, false] := by decide +kernel
/-- R178: a break lets the character on the line end, and none after it is sent. -/
theorem test_txd_break :
    let t := after (.breakDetected 1) ({ sending with now := 1000 } |> withPort 1 fun q =>
      { q with line := .space 0 false, begins := some (momentOf 1000) })
    [1000, 1001, 1002, 1008, 1009, 1018].map (fun n => (t.port 1).txMark (momentOf n)) =
      [false, false, true, true, true, true] := by decide +kernel
theorem test_break :
    ((after (.breakDetected 1) (withPort 1 (fun q => { q with line := .space 5 false, rate := .r460800 }) base)).session
      1).state = .severed { reason := .lineBreak, incarnation := 1, clientId := 0x1234, holdings := 0, requests := 0 } := by
  decide +kernel
theorem test_frameReport_flag :
    ((after (.frameReport 3) (withPort 3 (fun q => { q with reports := [{ stamp := 0, inc := 4 }] }) base)).session 3).state =
      .lapsed opened { frameSeen := true, missCount := 1, streak := 0 } := by decide +kernel
/-- Section 5.10 at 260 ms and at 360 ms. -/
theorem test_windowExpiry_example :
    let o : Nat → OpenSession := fun t => { clientId := 0, keepalive := 100, windowEnds := t }
    let s := fun (t : Nat) (l : Lapse) => base.setSession 3 { incarnation := 8, state := .lapsed (o t) l }
    ((after (.windowExpiry 3) (s 26000 { frameSeen := true, missCount := 1, streak := 0 })).session 3).state =
      .lapsed (o 36000) { frameSeen := false, missCount := 1, streak := 1 }
    ∧ ((after (.windowExpiry 3) (s 36000 { frameSeen := false, missCount := 1, streak := 1 })).session 3).state =
      .lapsed (o 46000) { frameSeen := false, missCount := 2, streak := 0 } := by decide +kernel
/-- Section 5.10 at 560 ms. -/
theorem test_windowExpiry_severs :
    let s := base.setSession 3
      { incarnation := 8
        state := .lapsed { clientId := 0, keepalive := 100, windowEnds := 56000 } { frameSeen := false, missCount := 2, streak := 1 } }
    ((after (.windowExpiry 3) s).session 3).state =
      .severed { reason := .keepalive, incarnation := 8, clientId := 0, holdings := 0, requests := 0 } := by decide +kernel
theorem test_severInputChange : (after (.severInputChange 1 true) base).severInputs[(1 : Port)].raw = true := by
  decide +kernel
theorem test_severInputFiltered :
    ((after (.severInputFiltered 1) (base.setSever 1 { raw := true, changed := 7, filtered := false })).session 1).state =
      .severed { reason := .pin, incarnation := 1, clientId := 0x1234, holdings := 0, requests := 0 } := by decide +kernel
theorem test_liveAgain :
    let s := (base.setClaims [waiting 2 7 0]).setSlot 2 7 (.waiting (filing 255 [0]) none)
    (after (.liveAgain 2) { s with liveReports := [{ port := 2, incarnation := 255 }] }).slot 2 7 = .done 255 .granted := by
  decide +kernel
theorem test_outcomeAcknowledged :
    let s := base.setSlot 2 7 (.done 255 .granted)
    (after (.outcomeAcknowledged 2 7) { s with ackEvents := [{ port := 2, handle := 7, incarnation := 255 }] }).slot 2 7 =
      .free := by decide +kernel
theorem test_noClaimsRemain :
    (after .noClaimsRemain { base with mode := .quiesce, drainReports := [true] }).mode = .setup := by decide +kernel
theorem test_waitExpiry :
    ((after (.waitExpiry 2 7) (contended .unlimited)).queue 2).entries.map Entry.notice = [.expired 7] := by decide +kernel
/-- Section 3.9 at 3000 ms: with a claim waiting the holder yields at once. -/
theorem test_holdExpiry_yields :
    (after (.holdExpiry 1 0) (contended (.timing 300))).claims = [held 1 0 (.yielding 800), waiting 2 7 0] := by
  decide +kernel
/-- Section 3.9 at 2000 ms: with an empty queue it only becomes OVERTIME. -/
theorem test_holdExpiry_overtime :
    (after (.holdExpiry 1 0) ((contended (.timing 300)).setClaims [held 1 0 (.timing 300)])).claims = [held 1 0 .overtime] := by
  decide +kernel
/-- Section 3.9 at 3500 ms: the revocation grants the waiting request. -/
theorem test_graceExpiry :
    let t := after (.graceExpiry 1 0) (contended (.yielding 300))
    (t.queue 1).entries.map Entry.notice = [.revoked 0 3 .overtime]
    ∧ (t.queue 2).entries.map Entry.notice = [.granted 7 [(0, 1)]] := by decide +kernel
theorem test_phaseTimerExpiry :
    (after (.phaseTimerExpiry 2) (handover .guard { applied := none, phase := .guard 20 })).lineReports =
      [{ resource := 2, kind := .guardElapsed, current := true }] := by decide +kernel
theorem test_confirmInputChange : (after (.confirmInputChange 0 true) base).confirmInputs[(0 : ConfNo)].raw = true := by
  decide +kernel
/-- Section 4.9 at 31.00 ms: the filtered level rises in ENGAGE. -/
theorem test_confirmFilterChange :
    let t := after (.confirmFilterChange 0)
      ((handover .engage { applied := some 1, phase := .engage 500 }).setConfirm 0 { raw := true, changed := 9, filtered := false })
    t.lineReports = [{ resource := 2, kind := .engagedSeen, current := true }]
    ∧ t.kindOf 2 = some (.line lineDef .engage { applied := some 1, phase := .watch }) := by decide +kernel

def reported (k : LineReportKind) (s : State) : State :=
  s.setLineReports [{ resource := 2, kind := k, current := true }]

/-- Section 4.9 at 5.00 ms: the filtered level is engaged, so verification starts. -/
theorem test_guardElapsed :
    (after (.guardElapsed 2) (reported .guardElapsed
      ((handover .guard quiet).setConfirm 0 { raw := true, changed := 0, filtered := true }))).kindOf 2 =
        some (.line lineDef .verify { applied := none, phase := .verify 500 }) := by decide +kernel
/-- Section 4.9 at 12.00 ms: the pattern of the port is driven and engagement starts. -/
theorem test_releaseSeen :
    (after (.releaseSeen 2) (reported .releaseSeen (handover .verify quiet))).kindOf 2 =
      some (.line lineDef .engage { applied := some 1, phase := .engage 500 }) := by decide +kernel
/-- Section 4.9: STUCK_ENGAGED and its FAILED notice. -/
theorem test_verifyTimeout :
    let t := after (.verifyTimeout 2) (reported .verifyTimeout (handover .verify quiet))
    t.kindOf 2 = some (.line lineDef (.faulted .stuckEngaged) quiet)
    ∧ (t.queue 1).entries.map Entry.notice = [.failed 0 2 .fault] := by decide +kernel
/-- Section 4.9 at 31.00 ms: the request is granted. -/
theorem test_engagedSeen :
    let t := after (.engagedSeen 2) (reported .engagedSeen (handover .engage { applied := some 1, phase := .watch }))
    t.kindOf 2 = some (.line lineDef .held { applied := some 1, phase := .watch })
    ∧ (t.queue 1).entries.map Entry.notice = [.granted 0 [(2, 1)]] := by decide +kernel
theorem test_engageTimeout :
    (after (.engageTimeout 2) (reported .engageTimeout (handover .engage { applied := some 1, phase := .quiet }))).kindOf 2 =
      some (.line lineDef (.faulted .engageTimeout) quiet) := by decide +kernel
theorem test_confirmationLost :
    let s := (base.setResource 2 (line .held { applied := some 1, phase := .quiet })).setClaims [held 1 2 .unlimited]
    let t := after (.confirmationLost 2) (reported .confirmationLost s)
    t.kindOf 2 = some (.line lineDef (.faulted .confirmLost) quiet) ∧ t.claims = []
    ∧ (t.queue 1).entries.map Entry.notice = [.revoked 2 3 .confirmLost] := by decide +kernel
theorem test_pinReset : (after .pinReset (contended .unlimited)) = State.reset := by decide +kernel
theorem test_characterReceived_sync : ((after (.characterReceived 1 0x5A) base).port 1).rx = .length := by decide +kernel
theorem test_characterReceived_length : ((after (.characterReceived 1 101)
    (withPort 1 (fun q => { q with rx := .length }) base)).port 1).rx = .hunt := by decide +kernel
theorem test_framingError : ((after (.framingError 1)
    (withPort 1 (fun q => { q with rx := .length, line := .space 0 false, character := some .r115200 }) base)).port 1).rx =
      .hunt := by decide +kernel
theorem test_receiveLineChange :
    ((after (.receiveLineChange 1 true true) base).port 1).line = .space 0 false := by decide +kernel


/-! ## States that meet the hypotheses of the statements -/

/-- Port `p` offers a request of kind `k` with a body, and its session is open. -/
def Meets (k : RequestKind) (p : Port) (body : List Byte) (s : State) : Prop :=
  (offer k p body s).Offered k p (frame k (s.incarnation p) body)
    ∧ (offer k p body s).OpenFor p (frame k (s.incarnation p) body)

theorem meets (k : RequestKind) (p : Port) (body : List Byte) {s : State} (h : s.isOpen p = true) : Meets k p body s :=
  ⟨offer_offered k p body s, offer_openFor k p body h⟩

/-- No claim has a handle, no slot an open request, and no two claims one port and one resource. -/
theorem heldOnly_laws (s : State) (h1 : ∀ c ∈ s.claims, c.state.handle = none) (h2 : ∀ p h, (s.slot p h).items = [])
    (h3 : ∀ p h, (s.slot p h).isOpen = false) (h4 : ∀ c ∈ s.claims, (s.resource c.resource).isSome = true)
    (h5 : s.mode = .setup → s.claims = []) (h6 : true ∉ s.drainReports) : s.TableLaw where
  backed c hc h hh := by rw [h1 c hc] at hh; cases hh
  items p h i hi := by rw [h2 p h] at hi; cases hi
  open_ p h ho := by rw [h3 p h] at ho; cases ho
  defined := h4
  setup := h5
  drained h := absurd h h6

/-- A resource byte above 63, and the number of an undefined resource. -/
theorem meets_resourceByte (k : RequestKind) (p : Port) (s : State) (h : s.isOpen p = true) (hn : s.resource 63 = none) :
    (Meets k p [64] s ∧ 63 < ((frame k 1 [64]).byte 0).toNat)
    ∧ Meets k p [63] s ∧ ((frame k 1 [63]).byte 0).toNat = (63 : ResNo).val ∧ s.resource 63 = none :=
  ⟨⟨meets k p _ h, by show 63 < (64 : Byte).toNat; decide⟩, meets k p _ h, by show (63 : Byte).toNat = 63; decide, hn⟩

theorem base_resourceByte (k : RequestKind) (p : Port) (h : base.isOpen p = true) :
    (Meets k p [64] base ∧ 63 < ((frame k 1 [64]).byte 0).toNat)
    ∧ Meets k p [63] base ∧ ((frame k 1 [63]).byte 0).toNat = (63 : ResNo).val ∧ base.resource 63 = none :=
  meets_resourceByte k p base h (by decide +kernel)

theorem witness_StepRunsFrontCommand : ({ base with pending := [.pinReset] } : State).pending = .pinReset :: [] := rfl

theorem witness_EmptyQueueStepsTheClock :
    (base.pending = [] ∧ base.dueEvent = none)
    ∧ ({ base with now := 100000 } : State).pending = []
    ∧ ({ base with now := 100000 } : State).dueEvent = some (.windowExpiry 0)
    ∧ (18, Instr.replySent 1) ∈ sending.timers := by decide +kernel

theorem witness_PinResetState :
    (base.port 1).line = .mark ∧ ((withPort 1 (fun q => { q with line := .space 5 true }) base).port 1).line = .space 5 true := by
  decide +kernel

theorem base_offers_nothing (k : RequestKind) (f : Frame) : ¬ base.Offered k 1 f := by
  intro h
  have e : (base.port 1).checkStage = none := by decide +kernel
  have := h.standing
  rw [e] at this
  cases this

theorem witness_BlocksServePortsInTurn :
    Meets .touch 1 [] base ∧ RequestKind.owner .touch ≠ .portInterface ∧ ∀ f, ¬ base.Offered .touch 1 f :=
  ⟨meets .touch 1 [] (by decide +kernel), by decide, base_offers_nothing .touch⟩

theorem witness_SessionPermissionAndModeRefusals_session :
    ((offer .touch 5 [] base).Offered .touch 5 (frame .touch 0 []) ∧ RequestKind.touch ≠ .join
      ∧ ((offer .touch 5 [] base).session 5).state = .idle ∧ RequestKind.touch ≠ .partInfo)
    ∧ ((offer .touch 4 [] base).Offered .touch 4 (frame .touch 2 [])
      ∧ ((offer .touch 4 [] base).session 4).state =
          .severed { reason := .pin, incarnation := 2, clientId := 3, holdings := 1, requests := 0 })
    ∧ let s := (offer .touch 1 [] base).setSession 1 (live 7)
      s.Offered .touch 1 (frame .touch 1 []) ∧ s.isOpen 1 = true ∧ (frame .touch 1 []).inc ≠ s.incarnation 1 := by
  refine ⟨⟨offer_offered .touch 5 [] base, by decide, by decide +kernel, by decide⟩,
    ⟨offer_offered .touch 4 [] base, by decide +kernel⟩, ?_, by decide +kernel, by decide +kernel⟩
  have h := offer_offered .touch 1 [] base
  exact ⟨h.standing, h.kind, h.turn⟩

theorem witness_SessionPermissionAndModeRefusals_mode :
    (Meets .restart 1 [] base ∧ RequestKind.restart.isSupervisor = true ∧ (1 : Port) ≠ base.supervisor)
    ∧ (Meets .claim 1 (claimBody 0 [(0, 0)]) { base with mode := .quiesce } ∧ DeviceMode.quiesce ≠ .service)
    ∧ (Meets .setLimits 0 [1, 1, 0] base ∧ 0 = base.supervisor ∧ base.mode ≠ .setup)
    ∧ (Meets .setMode 0 [2] { base with mode := .setup } ∧ (frame .setMode 1 [2]).byte 0 = 2)
    ∧ Meets .setMode 0 [0] base ∧ base.mode ≠ .setup ∧ (frame .setMode 1 [0]).byte 0 = 0 :=
  ⟨⟨meets _ _ _ (by decide +kernel), by decide, by decide⟩, ⟨meets _ _ _ (by decide +kernel), by decide⟩,
    ⟨meets _ _ _ (by decide +kernel), by decide, by decide⟩, ⟨meets _ _ _ (by decide +kernel), by decide⟩,
    meets _ _ _ (by decide +kernel), by decide, by decide⟩

/-- A request is offered whatever the session. -/
theorem witness_RequestsAreAnsweredOnce : (offer .touch 5 [] base).Offered .touch 5 (frame .touch 0 []) :=
  offer_offered .touch 5 [] base

/-- The parameter check of a CLAIM (R27). -/
abbrev ClaimForm (f : Frame) : Prop :=
  (f.byte 0).toNat ≤ 7 ∧ 1 ≤ (f.byte 3).toNat ∧ (f.byte 3).toNat ≤ 4 ∧ (f.byte 3).toNat = f.itemCount
    ∧ ∀ b ∈ f.itemBytes, b.1.toNat ≤ 63 ∧ (b.2 = 0 ∨ b.2 = 1)

/-- Port 1 offers a CLAIM in SERVICE whose body passes the parameter check. -/
def MeetsClaim (body : List Byte) (s : State) : Prop :=
  Meets .claim 1 body s ∧ s.mode = .service ∧ ClaimForm (frame .claim (s.incarnation 1) body)

theorem meetsClaim (h : Byte) (items : List (Byte × Byte)) (s : State) (ho : s.isOpen 1 = true) (hm : s.mode = .service)
    (hh : h.toNat ≤ 7) (hi : ∀ b ∈ items, b.1.toNat ≤ 63 ∧ (b.2 = 0 ∨ b.2 = 1))
    (hf : ∀ inc, (frame .claim inc (claimBody h items)).itemBytes = items
      ∧ (frame .claim inc (claimBody h items)).itemCount = items.length)
    (hn : 1 ≤ items.length ∧ items.length ≤ 4) : MeetsClaim (claimBody h items) s := by
  refine ⟨meets _ _ _ ho, hm, hh, ?_⟩
  have hc : ∀ inc, ((frame .claim inc (claimBody h items)).byte 3).toNat = items.length := by
    intro inc
    show (byteOf items.length).toNat = items.length
    simp [byteOf]; omega
  rw [hc, (hf _).2, (hf _).1]
  exact ⟨hn.1, hn.2, rfl, hi⟩

/-- A body for each failure of the parameter check of R27: the handle, the count 0, above 4 and other than that of the items
carried, a resource number and a mode. -/
theorem witness_ClaimChecksInOrder_parameters :
    (∀ body, Meets .claim 1 body base) ∧ base.mode = .service
    ∧ let f := frame .claim 1
      7 < ((f (claimBody 8 [(0, 0)])).byte 0).toNat
      ∧ ((f [7, 0, 0, 0, 0, 0]).byte 3).toNat = 0
      ∧ 4 < ((f [7, 0, 0, 5, 0, 0]).byte 3).toNat
      ∧ ((f [7, 0, 0, 2, 0, 0]).byte 3).toNat ≠ (f [7, 0, 0, 2, 0, 0]).itemCount
      ∧ (∃ b ∈ (f (claimBody 7 [(64, 0)])).itemBytes, 63 < b.1.toNat)
      ∧ ∃ b ∈ (f (claimBody 7 [(63, 2)])).itemBytes, b.2 ≠ 0 ∧ b.2 ≠ 1 :=
  ⟨fun _ => meets _ _ _ (by decide +kernel), by decide +kernel, by decide +kernel⟩

/-- One state and body for each refusal of R28 and R29 in their order, and one that passes them all. -/
theorem witness_ClaimChecksInOrder :
    (MeetsClaim (claimBody 7 [(63, 1)]) base ∧ base.resource 63 = none)
    ∧ (MeetsClaim (claimBody 7 [(0, 1)]) base ∧ base.kindOf 0 = some (.token false .vacant)
      ∧ Kind.isShareable (.token false .vacant) = false)
    ∧ (MeetsClaim (claimBody 7 [(0, 0)]) (base.setResource 0 (token false .faulted))
      ∧ (base.setResource 0 (token false .faulted)).kindOf 0 = some (.token false .faulted))
    ∧ (MeetsClaim (claimBody 7 [(0, 0)]) (base.setSlot 1 7 (.done 1 .granted))
      ∧ (base.setSlot 1 7 (.done 1 .granted)).slot 1 7 ≠ .free)
    ∧ (MeetsClaim (claimBody 7 [(0, 0), (0, 0)]) base
      ∧ ¬ ((frame .claim 1 (claimBody 7 [(0, 0), (0, 0)])).items.map fun i => i.resource).Nodup)
    ∧ (MeetsClaim (claimBody 7 [(0, 0)]) (contended .overtime) ∧ held 1 0 .overtime ∈ (contended .overtime).claims)
    ∧ (MeetsClaim (claimBody 7 [(0, 0)]) (base.notify 1 (.revoked 0 3 .overtime))
      ∧ ∃ e ∈ ((base.notify 1 (.revoked 0 3 .overtime)).queue 1).entries, e.notice.revokes 0 = true)
    ∧ (MeetsClaim (claimBody 7 [(0, 0)]) (base.setClaims (List.replicate 192 (held 2 1 .unlimited)))
      ∧ (base.setClaims (List.replicate 192 (held 2 1 .unlimited))).freeCount < 1)
    ∧ MeetsClaim (claimBody 7 [(0, 0), (1, 1), (2, 0)]) base ∧ base.slot 1 7 = .free := by
  refine ⟨⟨?_, ?_⟩, ⟨?_, ?_, ?_⟩, ⟨?_, ?_⟩, ⟨?_, ?_⟩, ⟨?_, ?_⟩, ⟨?_, ?_⟩, ⟨?_, ?_⟩, ⟨?_, ?_⟩, ?_, ?_⟩ <;>
    first
    | exact meetsClaim 7 _ _ (by decide +kernel) (by decide +kernel) (by decide) (by simp)
        (fun _ => by simp [frame, claimBody, Frame.itemBytes, Frame.itemCount, Frame.length, Frame.byte, List.range_succ])
        (by decide)
    | decide +kernel

theorem witness_ReadsAnswerAndChangeNothing :
    Meets .touch 1 [] base ∧ Meets .sessionInfo 3 [] base ∧ Meets .partInfo 1 [] base
    ∧ ((offer .partInfo 5 [] base).Offered .partInfo 5 (frame .partInfo 0 [])
      ∧ ((offer .partInfo 5 [] base).session 5).state = .idle)
    ∧ (Meets .resourceInfo 1 [0] (contended .overtime) ∧ (contended .overtime).resource 0 = token false .occupied)
    ∧ (Meets .resourceInfo 1 [2] base ∧ base.resource 2 = line .vacant quiet)
    ∧ Meets .holdings 1 [63] base ∧ ((frame .holdings 1 [63]).byte 0).toNat ≤ 63 := by
  refine ⟨meets _ _ _ ?_, meets _ _ _ ?_, meets _ _ _ ?_, ⟨offer_offered .partInfo 5 [] base, ?_⟩, ⟨meets _ _ _ ?_, ?_⟩,
    ⟨meets _ _ _ ?_, ?_⟩, meets _ _ _ ?_, ?_⟩ <;> decide +kernel

theorem witness_ReadsAnswerAndChangeNothing_refusals :
    (Meets .resourceInfo 1 [64] base ∧ Meets .resourceInfo 1 [63] base ∧ base.resource 63 = none)
    ∧ Meets .holdings 1 [64] base ∧ 63 < ((frame .holdings 1 [64]).byte 0).toNat :=
  have h := base_resourceByte .resourceInfo 1 (by decide +kernel)
  ⟨⟨h.1.1, h.2.1, h.2.2.2⟩, meets _ _ _ (by decide +kernel), by decide⟩

/-- The sessions and the resources whose bodies are spelled: a LIVE and a LAPSED session, a TOKEN and a LINE resource. -/
theorem witness_ReadsAnswerAndChangeNothing_bodies :
    ((base.session 1).state = .live opened
      ∧ (base.session 3).state = .lapsed opened { frameSeen := false, missCount := 1, streak := 0 })
    ∧ base.kindOf 0 = some (.token false .vacant) ∧ base.kindOf 2 = some (.line lineDef .vacant quiet) := by decide +kernel

theorem witness_ReadsAnswerAndChangeNothing_order :
    let s := base.setClaims ((List.finRange 64).take 17 |>.map fun x => held 1 x .unlimited)
    (s.claimsFrom 1 1).length ≤ 16 ∧ 16 < (s.claimsFrom 1 0).length := by decide +kernel

theorem witness_SummaryDescribesThePort :
    (base.isOpen 1 = true ∧ (base.isOpen 1 = false → (base.queue 1).entries = []))
    ∧ (base.isOpen 4 = false → (base.queue 4).entries = []) := by decide +kernel

/-- A receiver phase for each clause, at the limits of LENGTH. -/
theorem witness_CharactersDriveTheReceiver :
    let s := fun rx => withPort 1 (fun q => { q with rx := rx }) base
    (∀ rx ∈ [RxPhase.hunt, .length, .body 3 [1], .body 3 [1, 2], .crc [1, 2, 3] none], ((s rx).port 1).line = .mark
      ∧ ((s rx).port 1).rx = rx)
    ∧ ((0x5B : Byte) ≠ 0x5A ∧ 3 ≤ (3 : Byte).toNat ∧ (100 : Byte).toNat ≤ 100 ∧ (2 : Byte).toNat < 3
      ∧ 100 < (101 : Byte).toNat)
    ∧ (([1] : List Byte).length + 1 < 3 ∧ 3 ≤ ([1, 2] : List Byte).length + 1)
    ∧ (crc [3, 3, 9, 1] = Word16.ofBytes (Word16.low (crc [3, 3, 9, 1])) (Word16.high (crc [3, 3, 9, 1]))
      ∧ crc [3, 3, 9, 1] ≠ Word16.ofBytes 0 0) := by decide +kernel

theorem witness_FramingErrorsSilenceAndStartBits :
    let s := withPort 1 (fun q => { q with line := .space 0 false, character := some .r115200, silence := some 35 }) base
    ((s.port 1).line = .space 0 false ∧ (s.port 1).character = some .r115200 ∧ (s.port 1).silence = some 35)
    ∧ ((base.port 1).line = .mark ∧ (base.port 1).character = none)
    ∧ let t := withPort 1 (fun q => { q with character := some .r115200 }) base
      (t.port 1).line = .mark ∧ (t.port 1).character ≠ none := by decide +kernel

theorem witness_RequestFramesAreReceived :
    (List.replicate 97 (0x5A : Byte)).length ≤ 97 ∧ (base.port 1).line = .mark ∧ (base.port 1).rx = .hunt := by
  decide +kernel

theorem witness_InboundQueueFillsAndIsTaken_filled :
    let s := fun n => withPort 1 (fun q => { q with goodFrames := [sent], inbound := List.replicate n sent }) base
    (((s 1).port 1).goodFrames = sent :: [] ∧ ((s 1).port 1).inbound.length < 2)
    ∧ ((s 2).port 1).goodFrames = sent :: [] ∧ 2 ≤ ((s 2).port 1).inbound.length := by decide +kernel

theorem all_codes (b : Byte) (h : ∀ k ∈ RequestKind.all, b ≠ k.code) : ∀ k : RequestKind, b ≠ k.code := by
  intro k
  exact h k (by cases k <;> decide)

/-- A taking for each outcome: waiting for a place, from the cache, unknown, of a bad length, and into the check
stage. -/
theorem witness_InboundQueueFillsAndIsTaken_taken :
    let s := fun f g => withPort 1 (fun q => g { q with inbound := [f] }) base
    let full := s sent fun q => { q with replies := List.replicate 2 { bytes := [], appliesRate := false } }
    let cached := s sent fun q => { q with cache := some { kind := 3, tag := 9, inc := 1, reply := [1] } }
    ((full.port 1).inbound = sent :: [] ∧ 2 ≤ (full.port 1).replies.length)
    ∧ ((cached.port 1).inbound = sent :: [] ∧ (cached.port 1).checkStage = none ∧ (cached.port 1).pendingRate = none
      ∧ (cached.port 1).cache = some { kind := 3, tag := 9, inc := 1, reply := [1] } ∧ sent.kind = 3 ∧ sent.tag = 9
      ∧ sent.inc = 1)
    ∧ (((s sent id).port 1).cache = none ∧ sent.kind = RequestKind.touch.code ∧ sent.length ∈ RequestKind.touch.lengths)
    ∧ (frame .touch 1 [0]).length ∉ RequestKind.touch.lengths
    ∧ ∀ k : RequestKind, (0x85 : Byte) ≠ k.code := by
  refine ⟨by decide +kernel, by decide +kernel, by decide +kernel, by decide, all_codes _ (by decide)⟩

theorem witness_RatesChangeAfterTheReply :
    Meets .setRate 1 [3] base ∧ (frame .setRate 1 [3]).byte 0 = Rate.r921600.code ∧ 3 < ((frame .setRate 1 [4]).byte 0).toNat
    ∧ Meets .setRate 1 [4] base
    ∧ (∀ b : Bool, ((withPort 1 (fun q => { q with replies := [{ bytes := [], appliesRate := b }] }) base).port 1).replies =
        { bytes := [], appliesRate := b } :: [])
    ∧ ((withPort 1 (fun q => { q with pendingRate := some .r230400 }) base).port 1).pendingRate = some .r230400 := by
  refine ⟨meets _ _ _ ?_, ?_, ?_, meets _ _ _ ?_, ?_, ?_⟩ <;> decide +kernel

/-- The moments of the second character of a reply, and a port that sends nothing. -/
theorem witness_RatesChangeAfterTheReply_line :
    ((sending.port 1).begins = some 0 ∧ (sending.port 1).lastChar = none
      ∧ (sending.port 1).replies = { bytes := [0x5A, 0], appliesRate := false } :: []
      ∧ ([0x5A, 0] : List Byte)[1]? = some 0 ∧ (10 * 1 + 9) * 1000 ≤ 19999 ∧ 19999 < (10 * 1 + 9 + 1) * 1000)
    ∧ (base.port 1).replies = [] ∧ (base.port 1).lastChar = none := by decide +kernel

/-- A break that finds the second character on the line, and one that finds none. -/
theorem witness_BreakResetsThePort_line :
    (sending.port 1).onLine (momentOf 10) = some { value := 0, rate := .r115200, began := 10000 }
    ∧ (base.port 1).onLine (momentOf 10) = none := by decide +kernel

theorem witness_BreakResetsThePort :
    let s := fun p b => withPort p (fun q => { q with line := .space 5 b }) base
    ((s 1 true).port 1).line = .space 5 true
    ∧ (((s 1 false).port 1).line = .space 5 false ∧ ((s 1 false).session 1).state.opened = some opened)
    ∧ ((s 5 false).port 5).line = .space 5 false ∧ (s 5 false).isOpen 5 = false := by decide +kernel

/-- A JOIN refused for the sever input, for an interval just outside each limit, and two taken at the limits. -/
theorem witness_JoinOpensASession :
    (∀ body, (offer .join 5 body base).Offered .join 5 (frame .join 0 body))
    ∧ ((base.setSever 5 { raw := true, changed := 0, filtered := true }).severInputs[(5 : Port)].filtered = true)
    ∧ (base.severInputs[(5 : Port)].filtered = false ∧ base.isOpen 5 = false)
    ∧ ((frame .join 0 [0, 0, 19, 0]).word 2).toNat < 20 ∧ 10000 < ((frame .join 0 [0, 0, 0x11, 0x27]).word 2).toNat
    ∧ 20 ≤ ((frame .join 0 [0, 0, 20, 0]).word 2).toNat ∧ ((frame .join 0 [0, 0, 0x10, 0x27]).word 2).toNat ≤ 10000 :=
  ⟨fun body => offer_offered .join 5 body base, by decide +kernel, by decide +kernel, by decide, by decide, by decide,
    by decide⟩

theorem witness_RejoinSeversFirst :
    Meets .join 1 [0, 0, 20, 0] base ∧ base.severInputs[(1 : Port)].filtered = false
    ∧ 20 ≤ ((frame .join 1 [0, 0, 20, 0]).word 2).toNat ∧ ((frame .join 1 [0, 0, 20, 0]).word 2).toNat ≤ 10000
    ∧ (base.session 1).state.opened = some opened :=
  ⟨meets _ _ _ (by decide +kernel), by decide +kernel, by decide, by decide, by decide +kernel⟩

theorem witness_LeaveAndSeverEndTheSession :
    Meets .leave 1 [] (contended .overtime)
    ∧ (Meets .sever 0 [5] base ∧ 0 = base.supervisor ∧ ((frame .sever 1 [5]).byte 0).toNat = (5 : Port).val
      ∧ base.isOpen 5 = false)
    ∧ (Meets .sever 0 [6] base ∧ 5 < ((frame .sever 1 [6]).byte 0).toNat)
    ∧ Meets .sever 0 [0] base ∧ ((frame .sever 1 [0]).byte 0).toNat = (0 : Port).val
    ∧ (base.session 0).state.opened = some opened :=
  ⟨meets _ _ _ (by decide +kernel), ⟨meets _ _ _ (by decide +kernel), by decide, by decide, by decide +kernel⟩,
    ⟨meets _ _ _ (by decide +kernel), by decide⟩, meets _ _ _ (by decide +kernel), by decide, by decide +kernel⟩

theorem witness_FrameReportsActOnTheWindow :
    let s := fun p inc => withPort p (fun q => { q with reports := [{ stamp := 0, inc := inc }] }) base
    (((s 1 1).port 1).reports = { stamp := 0, inc := 1 } :: [] ∧ ((s 1 1).session 1).state = .live opened
      ∧ 1 = (s 1 1).incarnation 1)
    ∧ (((s 3 4).port 3).reports = { stamp := 0, inc := 4 } :: [] ∧ 4 = (s 3 4).incarnation 3
      ∧ ((s 3 4).session 3).state = .lapsed opened { frameSeen := false, missCount := 1, streak := 0 })
    ∧ ((s 5 0).port 5).reports = { stamp := 0, inc := 0 } :: [] ∧ (s 5 0).isOpen 5 = false := by decide +kernel

/-- Each outcome at its limit, with threshold 3 and recovery count 2. -/
theorem witness_WindowExpiryOutcomes :
    let s := fun seen m k => base.setSession 3
      { incarnation := 4, state := .lapsed opened { frameSeen := seen, missCount := m, streak := k } }
    ((base.session 1).state = .live opened ∧ 1 < base.threshold ∧ ({ base with threshold := 1 } : State).threshold ≤ 1
      ∧ (({ base with threshold := 1 } : State).session 1).state = .live opened)
    ∧ (∀ a ∈ [(true, 1, 1), (true, 1, 0), (false, 2, 0), (false, 1, 0)], ((s a.1 a.2.1 a.2.2).session 3).state =
        .lapsed opened { frameSeen := a.1, missCount := a.2.1, streak := a.2.2 })
    ∧ base.recovery ≤ 1 + 1 ∧ 0 + 1 < base.recovery ∧ base.threshold ≤ 2 + 1 ∧ 1 + 1 < base.threshold := by
  decide +kernel

theorem witness_SeverInputsAreFiltered :
    let s := fun raw filtered => base.setSever 1 { raw := raw, changed := 0, filtered := filtered }
    (base.severInputs[(1 : Port)].raw ≠ true ∧ base.severInputs[(1 : Port)].raw = false
      ∧ base.severInputs[(1 : Port)].raw = base.severInputs[(1 : Port)].filtered)
    ∧ ((s false true).severInputs[(1 : Port)].raw = false ∧ (s false true).severInputs[(1 : Port)].filtered = true)
    ∧ ((s true false).severInputs[(1 : Port)].raw = true ∧ (s true false).severInputs[(1 : Port)].filtered = false
      ∧ ((s true false).session 1).state.opened = some opened)
    ∧ let t := base.setSever 5 { raw := true, changed := 0, filtered := false }
      t.severInputs[(5 : Port)].raw = true ∧ t.severInputs[(5 : Port)].filtered = false ∧ t.isOpen 5 = false := by
  decide +kernel

/-- A SHARED and an EXCLUSIVE item, both free, with exactly two claim records left. -/
theorem witness_FreeTokensAreGrantedAtOnce :
    let s := (base.setResource 3 (token true .occupied)).setClaims (List.replicate 190 (held 2 3 .unlimited))
    let f := frame .claim 1 (claimBody 7 [(1, 1), (0, 0)])
    s.TableLaw ∧ MeetsClaim (claimBody 7 [(1, 1), (0, 0)]) s ∧ s.isLive 1 = true ∧ s.incarnation 1 = 1
    ∧ (f.items = [{ resource := 1, mode := .shared }, { resource := 0, mode := .exclusive }] ∧ f.itemCount = 2
      ∧ (f.byte 0).toNat = (7 : Handle).val ∧ (f.items.map fun i => i.resource).Nodup)
    ∧ (s.slot 1 7 = .free ∧ f.items.length ≤ s.freeCount)
    ∧ (s.kindOf 1 = some (.token true .vacant) ∧ s.kindOf 0 = some (.token false .vacant))
    ∧ ∀ i ∈ f.items, s.waitQueue i.resource = [] ∧ s.assigned i.resource = []
        ∧ s.revocationPending 1 i.resource = false := by
  refine ⟨heldOnly_laws _ ?_ ?_ ?_ ?_ ?_ ?_, ?_, ?_, ?_, ?_, ?_, ?_, ?_⟩
  rotate_left 6
  · exact meetsClaim 7 _ _ (by decide +kernel) (by decide +kernel) (by decide) (by simp)
      (fun _ => by simp [frame, claimBody, Frame.itemBytes, Frame.itemCount, Frame.length, Frame.byte, List.range_succ])
      (by decide)
  all_goals decide +kernel

theorem witness_ClaimsQueueBehindHolders :
    let s := (base.setResource 0 (token false .occupied)).setClaims [held 2 0 .overtime]
    let f := frame .claim 1 (claimBody 7 [(0, 0)])
    MeetsClaim (claimBody 7 [(0, 0)]) s
    ∧ (f.items = [{ resource := 0, mode := .exclusive }] ∧ f.itemCount = 1 ∧ (f.byte 0).toNat = (7 : Handle).val)
    ∧ (s.slot 1 7 = .free ∧ f.items.length ≤ s.freeCount ∧ s.kindOf 0 = some (.token false .occupied))
    ∧ (∃ a ∈ s.assigned 0, a.mode = .exclusive) ∧ (∀ a ∈ s.claims, a.resource = 0 → a.owner ≠ 1)
    ∧ s.revocationPending 1 0 = false ∧ s.graceOf 0 ≠ some 0
    ∧ s.isOpen 2 = true ∧ (s.claims.map fun a => (a.owner, a.resource)).Nodup := by
  refine ⟨?_, by decide +kernel, by decide +kernel, by decide +kernel, by decide +kernel, by decide +kernel, by decide +kernel,
    by decide +kernel, by decide +kernel⟩
  exact meetsClaim 7 _ _ (by decide +kernel) (by decide +kernel) (by decide) (by simp)
    (fun _ => by simp [frame, claimBody, Frame.itemBytes, Frame.itemCount, Frame.length, Frame.byte, List.range_succ])
    (by decide)

/-- A CLAIM of a free LINE resource, COOLING or VACANT, its confirm input at either level or unbound, with a free TOKEN
resource, in a state without claims. -/
theorem witness_ClaimsQueueBehindHolders_line :
    let f := frame .claim 1 (claimBody 7 [(2, 0), (0, 0)])
    let free := base.setResource 2 (some
      { label := 0, holdLimit := 0, yieldGrace := 0, grantNumber := 0, kind := .line { lineDef with confirm := none } .vacant quiet })
    let engaged := base.setConfirm 0 { raw := true, changed := 0, filtered := true }
    let cooling := base.setResource 2 (line .cooling { applied := none, phase := .guard 20 })
    (∀ s ∈ [base, free, engaged, cooling], MeetsClaim (claimBody 7 [(2, 0), (0, 0)]) s ∧ s.TableLaw ∧ s.isLive 1 = true
      ∧ s.slot 1 7 = .free ∧ f.items.length ≤ s.freeCount ∧ s.isLineRes 2 = true
      ∧ ∀ i ∈ f.items, s.waitQueue i.resource = [] ∧ s.revocationPending 1 i.resource = false
          ∧ s.assigned i.resource = [] ∧ i.mode = .exclusive)
    ∧ (f.items = [{ resource := 2, mode := .exclusive }, { resource := 0, mode := .exclusive }] ∧ f.itemCount = 2
      ∧ (f.items.map fun i => i.resource).Nodup)
    ∧ base.kindOf 2 = some (.line lineDef .vacant quiet) ∧ base.kindOf 0 = some (.token false .vacant)
    ∧ free.kindOf 2 = some (.line { lineDef with confirm := none } .vacant quiet)
    ∧ engaged.engagedLevel { input := 0, engagedHigh := true, timeout := 5 } = true
    ∧ base.engagedLevel { input := 0, engagedHigh := true, timeout := 5 } = false
    ∧ cooling.kindOf 2 = some (.line lineDef .cooling { applied := none, phase := .guard 20 }) := by
  refine ⟨?_, by decide +kernel⟩
  have form : ∀ s : State, s.isOpen 1 = true → s.mode = .service → MeetsClaim (claimBody 7 [(2, 0), (0, 0)]) s :=
    fun s ho hm => meetsClaim 7 _ s ho hm (by decide) (by simp)
      (fun _ => by simp [frame, claimBody, Frame.itemBytes, Frame.itemCount, Frame.length, Frame.byte, List.range_succ])
      (by decide)
  intro s hs
  simp only [List.mem_cons, List.not_mem_nil, or_false] at hs
  rcases hs with rfl | rfl | rfl | rfl
  all_goals
    refine ⟨form _ ?_ ?_, heldOnly_laws _ ?_ ?_ ?_ ?_ ?_ ?_, ?_, ?_, ?_, ?_, ?_⟩ <;> decide +kernel

/-- One pending item of two, and one of one. -/
theorem witness_EngagedSeenCompletesAndGrants :
    let s := reported .engagedSeen (handover .engage { applied := some 1, phase := .watch })
    let t := s.setSlot 1 0 (.assembling (filing 1 [2]) [2, 5])
    (s.oldestReport 2 .engagedSeen = some { resource := 2, kind := .engagedSeen, current := true }
      ∧ s.kindOf 2 = some (.line lineDef .engage { applied := some 1, phase := .watch })
      ∧ s.slot 1 0 = .assembling (filing 1 [2]) [2] ∧ s.reservingRequest 2 = some (1, 0) ∧ ([2] : List ResNo).erase 2 = []
      ∧ ((filing 1 [2]).items.map Item.resource).Nodup
      ∧ (∀ i ∈ (filing 1 [2]).items, (s.resource i.resource).isSome = true)
      ∧ ∃ c ∈ s.claims, Claim.ofRequest 1 0 c = true ∧ c.state.isReserved = true ∧ c.resource = 2 ∧ c.mode = .exclusive)
    ∧ t.oldestReport 2 .engagedSeen = some { resource := 2, kind := .engagedSeen, current := true }
    ∧ t.slot 1 0 = .assembling (filing 1 [2]) [2, 5] ∧ t.reservingRequest 2 = some (1, 0)
    ∧ ([2, 5] : List ResNo).erase 2 ≠ [] := by decide +kernel

/-- A handle above 7, a FREE slot, an open request others wait behind, and one nobody waits behind. -/
theorem witness_CancelDropsTheRequest :
    (Meets .cancel 1 [8] base ∧ 7 < ((frame .cancel 1 [8]).byte 0).toNat)
    ∧ (Meets .cancel 1 [7] base ∧ ((frame .cancel 1 [7]).byte 0).toNat = (7 : Handle).val ∧ (base.slot 1 7).isOpen = false)
    ∧ Meets .cancel 2 [7] (contended .overtime) ∧ ((contended .overtime).slot 2 7).isOpen = true
    ∧ ∀ i ∈ ((contended .overtime).slot 2 7).items, ∀ c ∈ (contended .overtime).waitQueue i.resource,
        Claim.ofRequest 2 7 c = true := by
  refine ⟨⟨meets _ _ _ ?_, ?_⟩, ⟨meets _ _ _ ?_, ?_, ?_⟩, meets _ _ _ ?_, ?_, ?_⟩ <;> decide +kernel

/-- A removal from a resource of each kind and state; a CANCEL of a request reserved in each state of a handover, and
resources that lose no claim. -/
theorem witness_RemovalLeavesTheResource :
    ((contended .unlimited).resource 0 = token false .occupied
      ∧ (∃ c ∈ (contended .unlimited).assigned 0, Claim.isHolding 1 0 c = true)
      ∧ ∀ c ∈ (contended .unlimited).assigned 1, Claim.isHolding 1 0 c = false)
    ∧ ∀ st ∈ [LineState.guard, .verify, .engage],
      (handover st quiet).resource 2 = line st quiet ∧ (handover st quiet).isOpen 1 = true
      ∧ ((frame .cancel 1 [0]).byte 0).toNat = (0 : Handle).val
      ∧ (handover st quiet).slot 1 0 = .assembling (filing 1 [2]) [2]
      ∧ (∀ i ∈ (filing 1 [2]).items, (handover st quiet).waitQueue i.resource = [])
      ∧ (∃ c ∈ (handover st quiet).assigned 2, Claim.ofRequest 1 0 c = true)
      ∧ ∀ c ∈ (handover st quiet).assigned 0, Claim.ofRequest 1 0 c = false := by decide +kernel

/-- A holding named by its number and by another, and a claim that is not HELD. -/
theorem witness_ReleaseNamesOneHolding :
    let s := contended .overtime
    (Meets .release 1 [0, 3, 0] s ∧ ((frame .release 1 [0, 3, 0]).byte 0).toNat = (0 : ResNo).val
      ∧ (s.resource 0).isSome = true ∧ s.claimOn 1 0 = some (held 1 0 .overtime)
      ∧ (held 1 0 .overtime).state = .held 3 .overtime ∧ 3 = (frame .release 1 [0, 3, 0]).word 1)
    ∧ (Meets .release 1 [0, 4, 0] s ∧ 3 ≠ (frame .release 1 [0, 4, 0]).word 1)
    ∧ (Meets .release 2 [0, 3, 0] s ∧ s.claimOn 2 0 = some (waiting 2 7 0) ∧ (waiting 2 7 0).state.isHeld = false)
    ∧ Meets .release 1 [64] base ∧ Meets .release 1 [63] base := by
  have h := base_resourceByte .release 1 (by decide +kernel)
  refine ⟨⟨meets _ _ _ ?_, ?_, ?_, ?_, ?_, ?_⟩, ⟨meets _ _ _ ?_, ?_⟩, ⟨meets _ _ _ ?_, ?_, ?_⟩, h.1.1, h.2.1⟩ <;>
    decide +kernel

theorem witness_ReleaseWithoutWaiters :
    let s := (base.setResource 0 (token false .occupied)).setClaims [held 1 0 .overtime]
    let t := (base.setResource 2 (line .held quiet)).setClaims [held 1 2 .overtime]
    (Meets .release 1 [0, 3, 0] s ∧ s.resource 0 = token false .occupied ∧ s.claimOn 1 0 = some (held 1 0 .overtime)
      ∧ (held 1 0 .overtime).state = .held ((frame .release 1 [0, 3, 0]).word 1) .overtime ∧ s.waitQueue 0 = [])
    ∧ Meets .release 1 [2, 3, 0] t ∧ t.resource 2 = line .held quiet ∧ t.claimOn 1 2 = some (held 1 2 .overtime)
    ∧ t.waitQueue 2 = [] := by
  refine ⟨⟨meets _ _ _ ?_, ?_, ?_, ?_, ?_⟩, meets _ _ _ ?_, ?_, ?_, ?_⟩ <;> decide +kernel

/-- A redeliver byte of 2 and of 1; an acknowledgement that names nothing and one that names the second entry. -/
theorem witness_FetchAcknowledgesAndDelivers :
    let e : Word16 → Bool → Entry := fun n d => { seq := n, notice := .expired (Fin.ofNat 8 n.toNat), delivered := d }
    let q : NoticeQueue := { entries := [e 1 true, e 2 true, e 3 false], nextSeq := 4, incarnation := 1 }
    (Meets .fetch 1 [0, 0, 2] base ∧ 1 < ((frame .fetch 1 [0, 0, 2]).byte 2).toNat)
    ∧ (Meets .fetch 1 [2, 0, 1] (base.setQueue 1 q) ∧ ((frame .fetch 1 [2, 0, 1]).byte 2).toNat ≤ 1)
    ∧ (∀ d ∈ q.entries, d.delivered = true → d.seq ≠ 3)
    ∧ q.entries = [e 1 true] ++ e 2 true :: [e 3 false] ∧ q.Law ∧ q.DeliveredFirst := by
  refine ⟨⟨meets _ _ _ (by decide +kernel), by decide⟩, ⟨meets _ _ _ (by decide +kernel), by decide⟩, by decide, rfl,
    ⟨by decide, by decide, by decide, by decide, by decide⟩, 2, by decide, by decide⟩

theorem witness_AcknowledgementFreesTheSlot :
    let a : AckEvent := { port := 1, handle := 2, incarnation := 1 }
    let s := { base.setSlot 1 2 (.done 1 .expired) with ackEvents := [{ a with handle := 3 }, a] }
    (s.ackEvents = [{ a with handle := 3 }] ++ a :: [] ∧ (∀ b ∈ [{ a with handle := 3 }], ¬ (b.port = 1 ∧ b.handle = 2))
      ∧ s.slot 1 2 = .done a.incarnation .expired)
    ∧ (({ base with ackEvents := [a] } : State).ackEvents = [] ++ a :: [] ∧ ∀ o, base.slot 1 2 ≠ .done a.incarnation o) := by
  refine ⟨by decide +kernel, rfl, fun o h => ?_⟩
  have e : base.slot 1 2 = .free := by decide +kernel
  rw [e] at h
  cases h

def setup : State := { base with mode := .setup }

/-- A DEFINE of each form, and an UNDEFINE. -/
theorem witness_DefinitionsAreWrittenWhole :
    (Meets .define 0 (exampleDefine 3) setup ∧ 0 = setup.supervisor ∧ setup.mode = .setup
      ∧ ((frame .define 1 (exampleDefine 3)).byte 0).toNat = (20 : ResNo).val
      ∧ (frame .define 1 (exampleDefine 3)).badDefine = false ∧ setup.kindOf 20 = none
      ∧ setup.lineConflict 20 (frame .define 1 (exampleDefine 3)).lineDef = false
      ∧ setup.confirmConflict 20 (frame .define 1 (exampleDefine 3)).lineDef = false
      ∧ (frame .define 1 (exampleDefine 3)).byte 1 = 1)
    ∧ (Meets .define 0 [63, 0, 1, 0, 1, 9, 0, 8, 0] setup ∧ (frame .define 1 [63, 0, 1, 0, 1, 9, 0, 8, 0]).badDefine = false
      ∧ (frame .define 1 [63, 0, 1, 0, 1, 9, 0, 8, 0]).isLineForm = false
      ∧ (frame .define 1 [63, 0, 1, 0, 1, 9, 0, 8, 0]).byte 1 = 0)
    ∧ Meets .undefine 0 [2] setup ∧ (setup.resource 2).isSome = true := by
  refine ⟨⟨meets _ _ _ ?_, ?_, ?_, ?_, ?_, ?_, ?_, ?_, ?_⟩, ⟨meets _ _ _ ?_, ?_, ?_, ?_⟩, meets _ _ _ ?_, ?_⟩ <;>
    decide +kernel

/-- A DEFINE for each failure of R11, in the order of the list there, one at each limit; and an UNDEFINE of a number above 63
and of an undefined resource. -/
theorem witness_DefinitionsAreWrittenWhole_refusals :
    (∀ body, Meets .define 0 body setup)
    ∧ (∀ body ∈ [[64, 0, 1, 0, 1, 9, 0, 8, 0], [20, 2, 1, 0, 1, 9, 0, 8, 0], [20, 1, 1, 0, 1, 9, 0, 8, 0],
        (exampleDefine 3).set 1 0, [20, 0, 1, 0, 2, 9, 0, 8, 0], (exampleDefine 3).set 4 1, (exampleDefine 3).set 9 32,
        exampleDefine 0, exampleDefine 9, (exampleDefine 3).set 9 30, (exampleDefine 3).set 11 8, exampleDefine 2,
        (exampleDefine 3).set 17 0, (exampleDefine 3).set 20 16, (exampleDefine 3).set 21 2,
        ((exampleDefine 3).set 22 0).set 23 0, ((exampleDefine 3).set 22 0x89).set 23 0x13],
        (frame .define 1 body).badDefine = true)
    ∧ (∀ body ∈ [exampleDefine 3, (exampleDefine 3).set 20 0xFF, (exampleDefine 3).set 9 29,
        ((exampleDefine 3).set 22 0x88).set 23 0x13, [63, 0, 1, 0, 1, 9, 0, 8, 0]],
        (frame .define 1 body).badDefine = false)
    ∧ Meets .undefine 0 [64] setup ∧ Meets .undefine 0 [63] setup ∧ setup.resource 63 = none := by
  have h := meets_resourceByte .undefine 0 setup (by decide +kernel) (by decide +kernel)
  exact ⟨fun _ => meets _ _ _ (by decide +kernel), by decide +kernel, by decide +kernel, h.1.1, h.2.1, h.2.2.2⟩

/-- Resource 20 busy; line 4 in another group; no line shared but the confirm input bound twice. -/
theorem witness_DefineChecksInOrder :
    let f := frame .define 1 (exampleDefine 3)
    let busy := setup.setResource 20 (line .cooling quiet)
    let other := fun d : LineDef => setup.setResource 2 (some
      { label := 0, holdLimit := 0, yieldGrace := 0, grantNumber := 0, kind := .line d .vacant quiet })
    let crossing : LineDef := { lineDef with firstLine := 3 }
    let bound : LineDef := { lineDef with confirm := some { input := 3, engagedHigh := false, timeout := 1 } }
    (∀ s ∈ [busy, other crossing, other bound], s.isOpen 0 = true ∧ s.supervisor = 0 ∧ s.mode = .setup)
    ∧ (f.byte 0).toNat = (20 : ResNo).val ∧ f.badDefine = false ∧ f.byte 1 = 1
    ∧ (busy.kindOf 20 = some (.line lineDef .cooling quiet) ∧ Kind.isVacant (.line lineDef .cooling quiet) = false)
    ∧ ((other crossing).kindOf 20 = none ∧ (other crossing).lineDef 2 = some crossing ∧ crossing.covers 4 = true
      ∧ f.lineDef.covers 4 = true)
    ∧ ((other bound).kindOf 20 = none ∧ (other bound).lineDef 2 = some bound
      ∧ (∀ y, y ≠ 2 → (other bound).lineDef y = none) ∧ (∀ n < 2, f.lineDef.covers n = false) ∧ 1 ≤ bound.width.toNat
      ∧ f.lineDef.confirm = some { input := 3, engagedHigh := true, timeout := 200 }) := by decide +kernel

/-- A limit of 0, and the three cases of a LAPSED session at their limits. -/
theorem witness_LimitsReachTheSessions :
    (Meets .setLimits 0 [0, 1, 0] setup ∧ 0 = setup.supervisor ∧ setup.mode = .setup
      ∧ ¬ (1 ≤ ((frame .setLimits 1 [0, 1, 0]).byte 0).toNat))
    ∧ (Meets .setLimits 0 [15, 1, 0] setup ∧ ((frame .setLimits 1 [15, 1, 0]).byte 0).toNat ≤ 15)
    ∧ ∀ f ∈ [[1, 2, 0], [2, 0, 0], [2, 1, 0]],
        (((offer .setLimits 0 f setup).taking .setLimits 0 (frame .setLimits 1 f)).session 3).state =
          .lapsed opened { frameSeen := false, missCount := 1, streak := 0 } := by
  refine ⟨⟨meets _ _ _ ?_, ?_, ?_, ?_⟩, ⟨meets _ _ _ ?_, ?_⟩, ?_⟩ <;> decide +kernel

/-- A byte that names no mode, the present mode, SERVICE from QUIESCE and from an empty SETUP, and QUIESCE with and
without claims left. -/
theorem witness_ModeChanges :
    (Meets .setMode 0 [3] base ∧ 0 = base.supervisor ∧ 2 < ((frame .setMode 1 [3]).byte 0).toNat)
    ∧ (Meets .setMode 0 [1] base ∧ (frame .setMode 1 [1]).byte 0 = base.mode.code)
    ∧ (Meets .setMode 0 [1] { contended .overtime with mode := .quiesce } ∧ DeviceMode.quiesce ≠ .service)
    ∧ (Meets .setMode 0 [1] setup ∧ setup.claims = [] ∧ ∀ q k, (setup.slot q k).isOpen = false)
    ∧ (Meets .setMode 0 [2] (contended .overtime) ∧ (contended .overtime).mode = .service ∧ (contended .overtime).TableLaw
      ∧ (contended .overtime).slot 2 7 = .waiting (filing 255 [0]) (some 50))
    ∧ Meets .setMode 0 [2] base ∧ base.TableLaw := by
  refine ⟨⟨meets _ _ _ ?_, ?_, ?_⟩, ⟨meets _ _ _ ?_, ?_⟩, ⟨meets _ _ _ ?_, ?_⟩, ⟨meets _ _ _ ?_, ?_, ?_⟩,
    ⟨meets _ _ _ ?_, ?_, test_contended_table, ?_⟩, meets _ _ _ ?_, test_base_table⟩ <;> decide +kernel

theorem witness_SupervisorRoleMoves :
    (Meets .setSupervisor 0 [6] base ∧ 0 = base.supervisor ∧ 5 < ((frame .setSupervisor 1 [6]).byte 0).toNat)
    ∧ Meets .setSupervisor 0 [5] base ∧ ((frame .setSupervisor 1 [5]).byte 0).toNat = (5 : Port).val := by
  refine ⟨⟨meets _ _ _ ?_, ?_, ?_⟩, meets _ _ _ ?_, ?_⟩ <;> decide +kernel

theorem contended_pool (ph : HoldPhase) : (contended ph).PoolLaw :=
  ⟨by show 2 ≤ 192; decide, by show ([(1, 0), (2, 0)] : List (Port × ResNo)).Nodup; decide⟩

theorem handover_pool (st : LineState) (lu : PhaseRecord) : (handover st lu).PoolLaw :=
  ⟨by show 1 ≤ 192; decide, by show ([(1, 2)] : List (Port × ResNo)).Nodup; decide⟩

/-- A holding with a request waiting behind it, a reservation, a holding alone, and a resource on which nothing stands. -/
theorem witness_ForceReleaseTakesTheResourceBack :
    (Meets .forceRelease 0 [0] (contended .overtime) ∧ 0 = (contended .overtime).supervisor
      ∧ (contended .overtime).resource 0 = token false .occupied ∧ (contended .overtime).PoolLaw
      ∧ (contended .overtime).TableLaw ∧ held 1 0 .overtime ∈ (contended .overtime).assigned 0
      ∧ (contended .overtime).isOpen 1 = true ∧ waiting 2 7 0 ∈ (contended .overtime).waitQueue 0
      ∧ (contended .overtime).slot 2 7 = .waiting (filing 255 [0]) (some 50))
    ∧ (Meets .forceRelease 0 [2] (handover .engage quiet) ∧ (handover .engage quiet).PoolLaw
      ∧ (handover .engage quiet).TableLaw ∧ reserved 1 0 2 ∈ (handover .engage quiet).assigned 2
      ∧ (handover .engage quiet).waitQueue 2 = [])
    ∧ (Meets .forceRelease 0 [0] base ∧ base.PoolLaw ∧ base.TableLaw ∧ base.assigned 0 = [] ∧ base.waitQueue 0 = [])
    ∧ Meets .forceRelease 0 [64] base ∧ Meets .forceRelease 0 [63] base := by
  have h := base_resourceByte .forceRelease 0 (by decide +kernel)
  refine ⟨⟨meets _ _ _ ?_, ?_, ?_, contended_pool _, test_contended_table, ?_, ?_, ?_, ?_⟩,
    ⟨meets _ _ _ ?_, handover_pool _ _, test_handover_table, ?_, ?_⟩,
    ⟨meets _ _ _ ?_, ⟨?_, ?_⟩, test_base_table, ?_, ?_⟩, h.1.1, h.2.1⟩ <;> decide +kernel

theorem witness_DisableFaultsTheResource :
    (Meets .disable 0 [0] (contended .overtime) ∧ 0 = (contended .overtime).supervisor
      ∧ (contended .overtime).kindOf 0 = some (.token false .occupied) ∧ (contended .overtime).PoolLaw
      ∧ (contended .overtime).TableLaw ∧ held 1 0 .overtime ∈ (contended .overtime).claims
      ∧ waiting 2 7 0 ∈ (contended .overtime).claims ∧ (waiting 2 7 0).state.handle = some 7)
    ∧ (Meets .disable 0 [2] (handover .engage quiet) ∧ (handover .engage quiet).PoolLaw ∧ (handover .engage quiet).TableLaw
      ∧ (handover .engage quiet).kindOf 2 = some (.line lineDef .engage quiet))
    ∧ Meets .disable 0 [64] base ∧ Meets .disable 0 [63] base := by
  have h := base_resourceByte .disable 0 (by decide +kernel)
  refine ⟨⟨meets _ _ _ ?_, ?_, ?_, contended_pool _, test_contended_table, ?_, ?_, ?_⟩,
    ⟨meets _ _ _ ?_, handover_pool _ _, test_handover_table, ?_⟩, h.1.1, h.2.1⟩ <;> decide +kernel

theorem witness_ClearFaultReturnsTheResource :
    (Meets .clearFault 0 [0] base ∧ 0 = base.supervisor ∧ base.resource 0 = token false .vacant
      ∧ Kind.isFaulted (.token false .vacant) = false)
    ∧ (∀ k ∈ [(0, token false .faulted), (2, line (.faulted .disabled) quiet)],
        (base.setResource k.1 k.2).resource k.1 = k.2 ∧ (base.setResource k.1 k.2).waitQueue k.1 = []
        ∧ (base.setResource k.1 k.2).isOpen 0 = true ∧ (k.2.map fun r => r.kind.isFaulted) = some true)
    ∧ (Meets .clearFault 0 [64] base ∧ Meets .clearFault 0 [63] base)
    ∧ let s := { contended .overtime with mode := .quiesce }.setResource 0 (token false .faulted)
      s.mode ≠ .service ∧ s.waitQueue 0 ≠ [] ∧ s.TableLaw := by
  have h := base_resourceByte .clearFault 0 (by decide +kernel)
  refine ⟨⟨meets _ _ _ ?_, ?_, ?_, ?_⟩, ?_, ⟨h.1.1, h.2.1⟩, ?_, ?_, tableLaw_of _ ?_ ?_ ?_ ?_ ?_ ?_⟩ <;> decide +kernel

theorem witness_RestartClearsThePart :
    Meets .restart 0 [] (contended .overtime) ∧ 0 = (contended .overtime).supervisor
    ∧ ((contended .overtime).session 1).state.opened = some opened ∧ (contended .overtime).isOpen 5 = false
    ∧ (contended .overtime).resource 0 = token false .occupied ∧ (contended .overtime).resource 2 = line .vacant quiet
    ∧ (contended .overtime).resource 3 = none := by
  refine ⟨meets _ _ _ ?_, ?_, ?_, ?_, ?_, ?_, ?_⟩ <;> decide +kernel

/-- A report whose session has no head, and one whose head is a request for one free TOKEN resource. -/
theorem witness_LiveAgainMovesTheHeads :
    let r : LiveReport := { port := 2, incarnation := 255 }
    let s := { (base.setClaims [waiting 2 7 0]).setSlot 2 7 (.waiting (filing 255 [0]) none) with
      liveReports := [{ r with port := 1 }, r] }
    (({ base with liveReports := [r] } : State).liveReports = [] ++ r :: [] ∧ base.headsOf r = [])
    ∧ (s.liveReports = [{ r with port := 1 }] ++ r :: [] ∧ (∀ a ∈ [{ r with port := 1 }], a.port ≠ 2)
      ∧ s.headsOf r = [0] ∧ s.slot 2 7 = .waiting (filing 255 [0]) none ∧ (filing 255 [0]).items.map Item.resource = [0]
      ∧ s.waitQueue 0 = [waiting 2 7 0] ∧ (s.claims.filter fun a => Claim.ofRequest 2 7 a) = [waiting 2 7 0]
      ∧ s.ready 2 7 = true ∧ s.resource 0 = token false .vacant) := by decide +kernel

theorem witness_DrainReportsEndInSetup :
    ∀ b, ({ base with mode := .quiesce, drainReports := [b, false] } : State).drainReports = b :: [false] := by decide +kernel

theorem witness_WaitExpiryEndsTheRequest :
    (contended .overtime).slot 2 7 = .waiting (filing 255 [0]) (some 50) ∧ (contended .overtime).isOpen 2 = true
    ∧ ∀ fl t, base.slot 2 7 ≠ .waiting fl (some t) := by
  refine ⟨by decide +kernel, by decide +kernel, fun fl t h => ?_⟩
  have e : base.slot 2 7 = .free := by decide +kernel
  rw [e] at h
  cases h

/-- The expiry with nobody waiting, with a grace, and with grace 0. -/
theorem witness_HoldExpiryYieldsToWaiters :
    let s := contended (.timing 300)
    let t := s.setResource 0 ((token false .occupied).map fun r => { r with yieldGrace := 0 })
    (s.PoolLaw ∧ s.claimOn 1 0 = some (held 1 0 (.timing 300)) ∧ (held 1 0 (.timing 300)).state = .held 3 (.timing 300)
      ∧ s.waitQueue 0 ≠ [] ∧ s.graceOf 0 = some 5)
    ∧ (t.PoolLaw ∧ t.claimOn 1 0 = some (held 1 0 (.timing 300)) ∧ t.waitQueue 0 ≠ [] ∧ t.graceOf 0 = some 0)
    ∧ let u := s.setClaims [held 1 0 (.timing 300)]
      u.PoolLaw ∧ u.claimOn 1 0 = some (held 1 0 (.timing 300)) ∧ u.waitQueue 0 = [] := by
  refine ⟨⟨contended_pool _, ?_, ?_, ?_, ?_⟩, ⟨⟨?_, ?_⟩, ?_, ?_, ?_⟩, ⟨?_, ?_⟩, ?_, ?_⟩ <;> decide +kernel

theorem witness_GraceExpiryRevokes :
    let s := contended (.yielding 300)
    (s.PoolLaw ∧ s.claimOn 1 0 = some (held 1 0 (.yielding 300))
      ∧ (held 1 0 (.yielding 300)).state = .held 3 (.yielding 300) ∧ s.isOpen 1 = true)
    ∧ let t := (base.setResource 2 (line .held quiet)).setClaims [held 1 2 (.yielding 300)]
      t.PoolLaw ∧ t.claimOn 1 2 = some (held 1 2 (.yielding 300)) ∧ t.waitQueue 2 = []
      ∧ t.kindOf 2 = some (.line lineDef .held quiet) := by
  refine ⟨⟨contended_pool _, ?_, ?_, ?_⟩, ⟨?_, ?_⟩, ?_, ?_, ?_⟩ <;> decide +kernel

theorem witness_PhaseTimersReportAndStaleReportsDoNothing :
    (∀ ph ∈ [Phase.guard 1, .verify 1, .engage 1],
      (handover .engage { applied := none, phase := ph }).kindOf 2 =
        some (.line lineDef .engage { applied := none, phase := ph }))
    ∧ let s := base.setLineReports [{ resource := 2, kind := .guardElapsed, current := false }]
      s.oldestReport 2 .guardElapsed = some { resource := 2, kind := .guardElapsed, current := false } := by decide +kernel

/-- A rising input at a resource in ENGAGE, and a falling one at a resource in VERIFY and in WATCH. -/
theorem witness_ConfirmInputsEndPhases :
    let s := fun (raw : Bool) ph => (handover .engage { applied := none, phase := ph }).setConfirm 0
      { raw := raw, changed := 0, filtered := !raw }
    (base.confirmInputs[(0 : ConfNo)].raw ≠ true ∧ base.confirmInputs[(0 : ConfNo)].raw = false
      ∧ base.confirmInputs[(0 : ConfNo)].raw = base.confirmInputs[(0 : ConfNo)].filtered)
    ∧ (∀ a ∈ [(true, Phase.engage 5), (false, .verify 5), (false, .watch), (true, .quiet), (true, .guard 5)],
        (s a.1 a.2).confirmInputs[(0 : ConfNo)].raw ≠ (s a.1 a.2).confirmInputs[(0 : ConfNo)].filtered
        ∧ (s a.1 a.2).kindOf 2 = some (.line lineDef .engage { applied := none, phase := a.2 })
        ∧ ((s a.1 a.2).confirmInputs[(0 : ConfNo)].raw == true) = a.1)
    ∧ lineDef.confirm = some { input := 0, engagedHigh := true, timeout := 5 } ∧ base.lineDef 0 = none := by
  decide +kernel

theorem witness_HandoverFollowsTheReports :
    let s := fun level st => reported .guardElapsed ((handover st quiet).setConfirm 0
      { raw := level, changed := 0, filtered := level })
    let free := { lineDef with confirm := none }
    let t := (s false .guard).setResource 2 (some
      { label := 0, holdLimit := 0, yieldGrace := 0, grantNumber := 0, kind := .line free .guard quiet })
    let v := fun level => reported .releaseSeen ((handover .verify quiet).setConfirm 0
      { raw := level, changed := 0, filtered := level })
    let b : ConfirmBinding := { input := 0, engagedHigh := true, timeout := 5 }
    (lineDef.confirm = some b ∧ reserved 1 0 2 = { owner := 1, resource := 2, mode := .exclusive, state := .reserved 0 })
    ∧ (∀ level, (s level .guard).oldestReport 2 .guardElapsed = some { resource := 2, kind := .guardElapsed, current := true }
      ∧ (s level .guard).kindOf 2 = some (.line lineDef .guard quiet)
      ∧ (s level .cooling).kindOf 2 = some (.line lineDef .cooling quiet)
      ∧ (s level .guard).assigned 2 = [reserved 1 0 2] ∧ (s level .guard).engagedLevel b = level)
    ∧ (t.kindOf 2 = some (.line free .guard quiet) ∧ free.confirm = none ∧ t.assigned 2 = [reserved 1 0 2])
    ∧ ∀ level, (v level).oldestReport 2 .releaseSeen = some { resource := 2, kind := .releaseSeen, current := true }
      ∧ (v level).kindOf 2 = some (.line lineDef .verify quiet) ∧ (v level).assigned 2 = [reserved 1 0 2]
      ∧ (v level).engagedLevel b = level := by decide +kernel

theorem reported_table (k : LineReportKind) (st : LineState) : (reported k (handover st quiet)).TableLaw := by
  have h := test_handover_table
  refine tableLaw_of _ rfl h.items h.open_ ?_ (fun h => by cases h) (fun h => by cases h)
  intro c hc
  cases hc with
  | head => rfl
  | tail _ hc => cases hc

/-- The four faults. -/
theorem witness_ConfirmationFaultsEndTheRequest :
    (∀ a ∈ [(LineReportKind.verifyTimeout, LineState.verify), (.engageTimeout, .engage), (.confirmationLost, .engage)],
      (reported a.1 (handover a.2 quiet)).TableLaw ∧ (reported a.1 (handover a.2 quiet)).PoolLaw
      ∧ (reported a.1 (handover a.2 quiet)).kindOf 2 = some (.line lineDef a.2 quiet)
      ∧ (reported a.1 (handover a.2 quiet)).oldestReport 2 a.1 = some { resource := 2, kind := a.1, current := true }
      ∧ reserved 1 0 2 ∈ (reported a.1 (handover a.2 quiet)).assigned 2
      ∧ (reported a.1 (handover a.2 quiet)).isOpen 1 = true)
    ∧ let s := reported .confirmationLost ((base.setResource 2 (line .held quiet)).setClaims [held 1 2 .unlimited])
      s.TableLaw ∧ s.PoolLaw ∧ s.kindOf 2 = some (.line lineDef .held quiet)
      ∧ s.oldestReport 2 .confirmationLost = some { resource := 2, kind := .confirmationLost, current := true }
      ∧ held 1 2 .unlimited ∈ s.assigned 2 := by
  refine ⟨fun a ha => ⟨reported_table _ _, ⟨(handover_pool a.2 quiet).room, (handover_pool a.2 quiet).oneEach⟩, ?_⟩,
    heldOnly_laws _ ?_ ?_ ?_ ?_ ?_ ?_, ⟨?_, ?_⟩, ?_, ?_, ?_⟩
  · revert a; decide +kernel
  all_goals decide +kernel

/-- A state with a holding and a waiting request, from which a step goes on, has the laws of claims and of the table. -/
theorem witness_StepsKeepTheClaimLaws :
    (contended .overtime).PoolLaw ∧ (contended .overtime).ExclusiveLaw
    ∧ step { contended .overtime with pending := [.waitExpiry 2 7] } = exec (.waitExpiry 2 7) (contended .overtime) := by
  have h : ∀ x, ∀ e ∈ (contended .overtime).assigned x, e = held 1 0 .overtime := by decide +kernel
  exact ⟨contended_pool _, fun x c hc d hd hne => absurd ((h x c hc).trans (h x d hd).symm) hne, rfl⟩

/-- Two requests of ports 1 and 2, which both wait for the resources 0 and 1 in one order, and the newly filed claim of a
CLAIM behind a holder. -/
theorem witness_StepsKeepTheClaimLaws_order :
    let s := base.setClaims [waiting 2 7 0, waiting 2 7 1, waiting 1 0 1, waiting 1 0 0]
    let u := offer .claim 2 (claimBody 2 [(0, 0)]) (base.setResource 0 (token false .occupied) |>.setClaims [held 1 0 .unlimited])
    s.WaitOrderLaw ∧ s.PoolLaw ∧ (s.waitRequests 0).filter (fun r => decide (r ∈ s.waitRequests 1)) = [(2, some 7), (1, some 0)]
    ∧ (contended .overtime).WaitOrderLaw ∧ (contended .overtime).TableLaw
    ∧ (after (.claim 2) u).waitQueue 0 = [waiting 2 2 0] ∧ u.waitQueue 0 = [] := by
  have h : ∀ x, (contended .overtime).waitRequests x = [] ∨ (contended .overtime).waitRequests x = [(2, some 7)] := by
    decide +kernel
  refine ⟨?_, ⟨?_, ?_⟩, ?_, fun x y => ?_, test_contended_table, ?_, ?_⟩
  · unfold State.WaitOrderLaw; decide +kernel
  all_goals first | decide +kernel | skip
  rcases h x with hx | hx <;> rcases h y with hy | hy <;> rw [hx, hy] <;> rfl

theorem witness_StepsKeepTheTableLaw : (contended .overtime).TableLaw := test_contended_table

theorem witness_StepsKeepTheQueueLaws : ∀ p, (base.queue p).Law ∧ (base.queue p).DeliveredFirst := fun p => by
  have e : base.queue p = { entries := [], nextSeq := 1, incarnation := 0 } := by revert p; decide +kernel
  rw [e]
  exact ⟨⟨by decide, by decide, by decide, by decide, by decide⟩, 0, by decide, by decide⟩

theorem witness_StepsKeepTheSessionLaws_closed : (contended .overtime).ClosedPortLaw := by
  unfold State.ClosedPortLaw; decide +kernel

theorem base_lapsed (p : Port) (o : OpenSession) (l : Lapse) (h : (base.session p).state = .lapsed o l) :
    l = { frameSeen := false, missCount := 1, streak := 0 } := by
  have e : ∀ p, (base.session p).state = .idle ∨ (base.session p).state = .live opened
      ∨ (base.session p).state = .severed { reason := .pin, incarnation := 2, clientId := 3, holdings := 1, requests := 0 }
      ∨ (base.session p).state = .lapsed opened { frameSeen := false, missCount := 1, streak := 0 } := by
    decide +kernel
  rcases e p with e | e | e | e <;> rw [e] at h <;> cases h
  rfl

theorem witness_StepsKeepTheSessionLaws_misses : base.MissLaw :=
  ⟨by decide +kernel, fun p o l h => by rw [base_lapsed p o l h]; decide +kernel⟩

theorem base_lines (x : ResNo) : base.kindOf x = none ∨ base.kindOf x = some (.token false .vacant)
    ∨ base.kindOf x = some (.token true .vacant) ∨ x = 2 ∧ base.kindOf x = some (.line lineDef .vacant quiet) := by
  revert x; decide +kernel

theorem base_lineDef (x : ResNo) : base.lineDef x = none ∨ x = 2 ∧ base.lineDef x = some lineDef := by
  revert x; decide +kernel

theorem lineDef_drive : ∀ k : Port, lineDef.drive[k] = 1 := by decide

theorem lineDef_valid : lineDef.Valid := by
  refine ⟨by decide, by decide, fun i hi => ⟨BitVec.getLsbD_zero, fun k => ?_⟩, by decide, fun b hb => by cases hb; decide⟩
  rw [lineDef_drive k]
  by_cases h8 : i < 8
  · have h2 : 2 ≤ i := hi
    interval_cases i <;> rfl
  · exact BitVec.getLsbD_of_ge _ _ (by omega)

theorem witness_StepsKeepTheLineLaws : base.DriveLaw ∧ base.DefinitionLaw := by
  refine ⟨fun x k h => ?_, fun x d h => ?_, fun x y d e hne hd he => ?_, fun x y d e b c hne hd he => ?_⟩
  · rcases base_lines x with e | e | e | ⟨-, e⟩ <;> rw [e] at h <;> cases h <;> trivial
  · rcases base_lineDef x with e | ⟨-, e⟩ <;> rw [e] at h <;> cases h
    exact lineDef_valid
  all_goals
    rcases base_lineDef x with h | ⟨rfl, h⟩ <;> rw [h] at hd <;> cases hd
    rcases base_lineDef y with h | ⟨rfl, h⟩ <;> rw [h] at he <;> cases he
    exact absurd rfl hne

theorem base_definition : base.DefinitionLaw := witness_StepsKeepTheLineLaws.2

/-- A line in no group, and a line of resource 2 with its idle pattern and with port 1's applied. -/
theorem witness_LineLevelsFollowTheGroups :
    (∀ x d, base.lineDef x = some d → d.covers (5 : LineNo).val = false)
    ∧ (base.DefinitionLaw ∧ base.kindOf 2 = some (.line lineDef .vacant quiet) ∧ 1 < lineDef.width.toNat
      ∧ (1 : LineNo).val = lineDef.firstLine.toNat + 1 ∧ quiet.applied = none)
    ∧ (handover .engage { applied := some 1, phase := .watch }).kindOf 2 =
        some (.line lineDef .engage { applied := some 1, phase := .watch }) := by
  refine ⟨fun x d h => ?_, ⟨base_definition, ?_, ?_, ?_, ?_⟩, ?_⟩
  · rcases base_lineDef x with e | ⟨-, e⟩ <;> rw [e] at h <;> cases h
    decide
  all_goals decide +kernel

theorem contended_kinds : ∀ x, (contended .overtime).kindOf x = none
    ∨ (x = 0 ∧ (contended .overtime).kindOf x = some (.token false .occupied)
        ∧ (contended .overtime).assigned x = [held 1 0 .overtime])
    ∨ (x = 1 ∧ (contended .overtime).kindOf x = some (.token true .vacant) ∧ (contended .overtime).assigned x = [])
    ∨ (x = 2 ∧ (contended .overtime).kindOf x = some (.line lineDef .vacant quiet)
        ∧ (contended .overtime).assigned x = []) := by decide +kernel

theorem witness_StepsKeepTheAssignedLaw :
    (contended .overtime).AssignedLaw ∧ (contended .overtime).PoolLaw ∧ (contended .overtime).ExclusiveLaw
    ∧ (contended .overtime).TableLaw := by
  refine ⟨⟨?_, fun x k hk => ?_, fun p k f pend hs => ?_⟩, contended_pool _, witness_StepsKeepTheClaimLaws.2.1,
    test_contended_table⟩
  · have h : ∀ c ∈ (contended .overtime).claims, c.mode = .exclusive := by decide +kernel
    intro c hc hm
    rw [h c hc] at hm
    cases hm
  · rcases contended_kinds x with e | ⟨-, e, a⟩ | ⟨-, e, a⟩ | ⟨-, e, a⟩ <;> rw [e] at hk <;> cases hk <;> rw [a]
    · exact List.cons_ne_nil _ _
    · rfl
    · rfl
  · have h : ∀ p h, (contended .overtime).slot p h = .free
        ∨ (contended .overtime).slot p h = .waiting (filing 255 [0]) (some 50) := by decide +kernel
    rcases h p k with e | e <;> rw [e] at hs <;> cases hs

/-- The release by which port 2's waiting claim comes to be HELD. -/
theorem witness_ReservationsNeedServiceAndALiveSession :
    let s := { offer .release 1 [0, 3, 0] (contended .overtime) with pending := [.release 1] }
    let t := after (.release 1) (offer .release 1 [0, 3, 0] (contended .overtime))
    s.PoolLaw ∧ waiting 2 7 0 ∈ s.claims ∧ (waiting 2 7 0).state.isWaiting = true
    ∧ (∃ d ∈ t.claims, d.owner = 2 ∧ d.resource = 0 ∧ d.state.isAssigned = true) := by
  refine ⟨⟨(contended_pool .overtime).room, (contended_pool .overtime).oneEach⟩, ?_, ?_, ?_⟩ <;> decide +kernel

/-- A release that ends the driving of a pattern, and a resource in COOLING guarded since the time 0. -/
theorem witness_GuardIntervalsAreKept :
    let s := (base.setResource 2 (line .held { applied := some 1, phase := .watch })).setClaims [held 1 2 .unlimited]
    let u := base.setResource 2 (line .cooling { applied := none, phase := .guard 20 })
    (s.drives 2 = true ∧ (after (.release 1) (offer .release 1 [2, 3, 0] s)).drives 2 = false ∧ s.DriveLaw)
    ∧ u.GuardedSince 2 0 := by
  refine ⟨⟨by decide +kernel, by decide +kernel, fun x k hk => ?_⟩, Nat.zero_le _, fun d st lu hk => ?_⟩
  · have h : ∀ x, State.kindOf
          ((base.setResource 2 (line .held { applied := some 1, phase := .watch })).setClaims [held 1 2 .unlimited]) x = none
        ∨ State.kindOf
          ((base.setResource 2 (line .held { applied := some 1, phase := .watch })).setClaims [held 1 2 .unlimited]) x =
            some (.token false .vacant)
        ∨ State.kindOf
          ((base.setResource 2 (line .held { applied := some 1, phase := .watch })).setClaims [held 1 2 .unlimited]) x =
            some (.token true .vacant)
        ∨ State.kindOf
          ((base.setResource 2 (line .held { applied := some 1, phase := .watch })).setClaims [held 1 2 .unlimited]) x =
            some (.line lineDef .held { applied := some 1, phase := .watch }) := by decide +kernel
    rcases h x with e | e | e | e <;> rw [e] at hk <;> cases hk <;> first | trivial | (intro h; cases h)
  · have h : (base.setResource 2 (line .cooling { applied := none, phase := .guard 20 })).kindOf 2 =
        some (.line lineDef .cooling { applied := none, phase := .guard 20 }) := by decide +kernel
    rw [h] at hk
    cases hk
    exact ⟨by show (0 : Nat) + lineDef.guard.toNat ≤ 20; decide, fun r hr => by cases hr⟩

end Sys2Proof.Tests
end

section
/-! ## The passages of a resource

What any event may make of one resource: its definition stays, a drive pattern is applied in ENGAGE and HELD only (R75, R96),
and the guard interval is kept (R82). -/

namespace Sys2Proof.Machine

/-- A current "guard elapsed" about the resource waits to be taken (R77, R83). -/
def State.GuardReported (s : State) (x : ResNo) : Prop :=
  ∃ r ∈ s.lineReports, r.resource = x ∧ r.kind = .guardElapsed ∧ r.current = true

/-- The guard law as a resource's kind part keeps it (R82): the interval since a moment is kept, or a drive pattern is driven
again, and then, where `again` is asked, the interval has passed. -/
def Kind.KeepsGuard (again reported : Prop) (since now : Time) : Kind → Prop
  | .token _ _ => True
  | .line d st lu =>
    (st.Guards lu.phase since d.guard.toNat now ∧ (reported → since + d.guard.toNat ≤ now))
    ∨ ((st = .engage ∨ st = .held) ∧ (again → since + d.guard.toNat ≤ now))

/-- A passage of a resource's kind part at the moment `now`, `before` and `after` saying whether a current "guard elapsed"
waits: the definition is kept, and with it the laws of R75 and R82. -/
structure Kind.Passes (now : Time) (before after : Prop) (k k' : Kind) : Prop where
  lineDef : k'.lineDef = k.lineDef
  drive : k.DriveLaw → k'.DriveLaw
  guard : ∀ again since, since ≤ now → k.KeepsGuard again before since now → k'.KeepsGuard again after since now

/-- Every resource passes, or stays undefined, while the time stands. -/
structure State.KeepsLines (s t : State) : Prop where
  now : t.now = s.now
  passes : ∀ x, Option.Rel (Kind.Passes s.now (s.GuardReported x) (t.GuardReported x)) (s.kindOf x) (t.kindOf x)

/-! ### Passages of a kind part -/

section
variable {now : Time} {before after : Prop}

theorem Kind.Passes.refl (k : Kind) (h : after → before) : Kind.Passes now before after k k where
  lineDef := rfl
  drive := id
  guard again since _ hk := by
    cases k with
    | token => trivial
    | line d st lu => exact hk.imp (fun ⟨a, b⟩ => ⟨a, fun r => b (h r)⟩) id

theorem Kind.Passes.trans {later : Prop} {k l m : Kind} (a : Kind.Passes now before after k l)
    (b : Kind.Passes now after later l m) : Kind.Passes now before later k m where
  lineDef := b.lineDef.trans a.lineDef
  drive h := b.drive (a.drive h)
  guard again since hs h := b.guard again since hs (a.guard again since hs h)

theorem Kind.Passes.token (sh sh' : Bool) (st st' : TokenState) :
    Kind.Passes now before after (.token sh st) (.token sh' st') := ⟨rfl, fun _ => trivial, fun _ _ _ _ => trivial⟩

variable (d : LineDef) (lu : PhaseRecord)

/-- COOLING with a fresh guard, earlier reports being stale (R76). -/
theorem Kind.Passes.cool (st : LineState) (h : ¬ after) : Kind.Passes now before after (.line d st lu)
    (.line d .cooling { applied := none, phase := .guard (now + d.guard.toNat) }) where
  lineDef := rfl
  drive _ := rfl
  guard _ _ hs _ := .inl ⟨Nat.add_le_add_right hs _, fun r => absurd r h⟩

/-- FAULTED on the idle pattern, earlier reports being stale (R96). -/
theorem Kind.Passes.fault (st : LineState) (reason : FaultReason) (h : ¬ after) : Kind.Passes now before after
    (.line d st lu) (.line d (.faulted reason) { applied := none, phase := .quiet }) where
  lineDef := rfl
  drive _ := rfl
  guard _ _ _ _ := .inl ⟨trivial, fun r => absurd r h⟩

/-- The reservation and the unreserving of a resource whose guard runs (R56, R84). -/
theorem Kind.Passes.guard_cooling (h : after → before) :
    Kind.Passes now before after (.line d .cooling lu) (.line d .guard lu)
    ∧ Kind.Passes now before after (.line d .guard lu) (.line d .cooling lu) := by
  refine ⟨⟨rfl, fun a => a, fun again since _ hk => ?_⟩, ⟨rfl, fun a => a, fun again since _ hk => ?_⟩⟩ <;>
  · obtain ⟨hg, hr⟩ := hk.resolve_right (by simp)
    refine .inl ⟨?_, fun r => hr (h r)⟩
    revert hg
    cases lu.phase <;> exact id

/-- In VACANT and VERIFY the interval has passed, and so has it where a current "guard elapsed" is taken in COOLING or
GUARD (R82, R83). -/
theorem Kind.KeepsGuard.passed {again : Prop} {since : Time} {st : LineState}
    (hst : st = .vacant ∨ st = .verify ∨ (before ∧ (st = .cooling ∨ st = .guard)))
    (h : (Kind.line d st lu).KeepsGuard again before since now) : since + d.guard.toNat ≤ now := by
  obtain ⟨hg, hr⟩ := h.resolve_right (by rintro ⟨e | e, -⟩ <;> simp [e] at hst)
  rcases hst with rfl | rfl | ⟨hb, -⟩
  · exact hg
  · exact hg
  · exact hr hb

/-- Once the interval has passed, a LINE resource on its idle pattern may be VACANT or VERIFY (R83, R85). -/
theorem Kind.Passes.elapsed {st st' : LineState}
    (hst : st = .vacant ∨ st = .verify ∨ (before ∧ (st = .cooling ∨ st = .guard))) (hst' : st' = .vacant ∨ st' = .verify)
    (lu' : PhaseRecord) (ha : lu'.applied = lu.applied ∨ lu'.applied = none) :
    Kind.Passes now before after (.line d st lu) (.line d st' lu') where
  lineDef := rfl
  drive hd := by
    have idle : lu.applied = none := by rcases hst with rfl | rfl | ⟨-, rfl | rfl⟩ <;> exact hd
    have idle' : lu'.applied = none := ha.elim (fun e => e.trans idle) id
    rcases hst' with rfl | rfl <;> exact idle'
  guard again since _ hk := by
    have passed := hk.passed d lu hst
    refine .inl ⟨?_, fun _ => passed⟩
    rcases hst' with rfl | rfl <;> exact passed

/-- Once the interval has passed, a LINE resource may drive a pattern again (R85, R88). -/
theorem Kind.Passes.engage {st : LineState}
    (hst : st = .vacant ∨ st = .verify ∨ (before ∧ (st = .cooling ∨ st = .guard))) (lu' : PhaseRecord)
    (ha : lu'.applied ≠ none) : Kind.Passes now before after (.line d st lu) (.line d .engage lu') where
  lineDef := rfl
  drive _ := ha
  guard _ _ _ hk := .inr ⟨.inl rfl, fun _ => hk.passed d lu hst⟩

/-- The grant: ENGAGE becomes HELD (R91). -/
theorem Kind.Passes.hold : Kind.Passes now before after (.line d .engage lu) (.line d .held lu) where
  lineDef := rfl
  drive hd := hd
  guard _ _ _ hk := by
    obtain ⟨-, ha⟩ := hk.resolve_left fun ⟨hg, _⟩ => hg
    exact .inr ⟨.inr rfl, ha⟩

theorem Kind.driveLaw_phase {st : LineState} {ph : Phase} (h : (Kind.line d st lu).DriveLaw) :
    (Kind.line d st { lu with phase := ph }).DriveLaw := by cases st <;> exact h

/-- The guard timer of a resource expires (R74). -/
theorem Kind.Passes.guardEnds (st : LineState) {t : Time} (hlu : lu.phase = .guard t) (ht : t ≤ now) :
    Kind.Passes now before after (.line d st lu) (.line d st { lu with phase := .quiet }) where
  lineDef := rfl
  drive := Kind.driveLaw_phase d lu
  guard again since _ hk := by
    refine hk.imp (fun ⟨hg, _⟩ => ?_) id
    rw [hlu] at hg
    have passed : since + d.guard.toNat ≤ now := by
      cases st with
      | vacant | verify => exact hg
      | cooling | guard => exact hg.trans ht
      | engage | held | faulted => exact False.elim hg
    refine ⟨?_, fun _ => passed⟩
    cases st with
    | vacant | verify | cooling | guard => exact passed
    | engage | held | faulted => exact False.elim hg

/-- The Line Unit leaves VERIFY, ENGAGE or WATCH of its own accord (R87, R90, R93). -/
theorem Kind.Passes.phase (st : LineState) (ph : Phase)
    (hlu : lu.phase = .watch ∨ ∃ t, lu.phase = .verify t ∨ lu.phase = .engage t) (h : after → before) :
    Kind.Passes now before after (.line d st lu) (.line d st { lu with phase := ph }) where
  lineDef := rfl
  drive := Kind.driveLaw_phase d lu
  guard again since _ hk := by
    refine hk.imp (fun ⟨hg, hr⟩ => ⟨?_, fun r => hr (h r)⟩) id
    cases st with
    | vacant | verify => exact hg
    | cooling | guard | engage | held | faulted =>
      rcases hlu with e | ⟨t, e | e⟩ <;> rw [e] at hg <;> exact False.elim hg
end

/-! ### What a step that keeps the lines leaves of the laws -/

theorem State.GuardReported.congr {s t : State} {x : ResNo} (h : t.lineReports = s.lineReports) :
    t.GuardReported x ↔ s.GuardReported x := by unfold State.GuardReported; rw [h]

theorem State.guardReported_report (s : State) (x y : ResNo) (k : LineReportKind) :
    (s.report x k).GuardReported y ↔ s.GuardReported y ∨ (x = y ∧ k = .guardElapsed) := by
  simp [State.GuardReported, State.report, or_and_right, exists_or]

theorem State.guardReported_staleReports (s : State) (x y : ResNo) :
    (s.staleReports x).GuardReported y ↔ y ≠ x ∧ s.GuardReported y := by
  constructor
  · rintro ⟨r, hr, rfl, hk, hc⟩
    obtain ⟨r0, hr0, rfl⟩ := List.mem_map.mp hr
    by_cases e : r0.resource = x
    · simp [e] at hc
    · simp only [e, if_false] at hk hc ⊢
      exact ⟨e, r0, hr0, rfl, hk, hc⟩
  · rintro ⟨hne, r, hr, rfl, hk, hc⟩
    exact ⟨r, List.mem_map.mpr ⟨r, hr, if_neg hne⟩, rfl, hk, hc⟩

theorem State.GuardReported.of_fewer {s t : State} {x : ResNo} (h : ∀ r ∈ t.lineReports, r ∈ s.lineReports)
    (ht : t.GuardReported x) : s.GuardReported x :=
  let ⟨r, hr, hx⟩ := ht
  ⟨r, h r hr, hx⟩

section
variable {s t u : State}

/-- Nothing changes of the resources, and no report is made. -/
theorem State.KeepsLines.same (hn : t.now = s.now) (hr : t.resources = s.resources)
    (hl : ∀ r ∈ t.lineReports, r ∈ s.lineReports) : s.KeepsLines t := by
  refine ⟨hn, fun x => ?_⟩
  have hk : t.kindOf x = s.kindOf x := by simp [State.kindOf, State.resource, hr]
  rw [hk]
  cases s.kindOf x with
  | none => exact .none
  | some k => exact .some (.refl k (State.GuardReported.of_fewer hl))

theorem State.KeepsLines.refl (s : State) : s.KeepsLines s := .same rfl rfl fun _ h => h

theorem State.KeepsLines.trans (a : s.KeepsLines t) (b : t.KeepsLines u) : s.KeepsLines u := by
  refine ⟨b.now.trans a.now, fun x => ?_⟩
  have ha := a.passes x
  have hb := b.passes x
  rw [a.now] at hb
  generalize s.kindOf x = k at ha ⊢
  generalize t.kindOf x = l at ha hb
  generalize u.kindOf x = m at hb ⊢
  cases ha with
  | none => cases hb; exact .none
  | some h => cases hb with | some h' => exact .some (h.trans h')

theorem State.KeepsLines.foldl {α : Type} (f : State → α → State) (hf : ∀ (s : State) (a : α), s.KeepsLines (f s a))
    (xs : List α) (s : State) : s.KeepsLines (xs.foldl f s) := by
  induction xs generalizing s with
  | nil => exact .refl s
  | cons a xs ih => exact (hf s a).trans (ih (f s a))

/-- The record of one resource passes, and no report about another is made. -/
theorem State.LineOrder.keepsLines {x : ResNo} (a : State.LineOrder x s t)
    (hr : ∀ y, y ≠ x → t.GuardReported y → s.GuardReported y)
    (hk : ∀ k, s.kindOf x = some k →
      ∃ k', t.kindOf x = some k' ∧ Kind.Passes s.now (s.GuardReported x) (t.GuardReported x) k k') : s.KeepsLines t := by
  refine ⟨a.outside.now, fun y => ?_⟩
  by_cases e : y = x
  · subst e
    cases h : s.kindOf y with
    | none =>
      have : (t.resource y).isSome = (s.resource y).isSome := a.isSome y
      have : t.kindOf y = none := by
        cases hs : s.resource y <;> cases ht : t.resource y <;> simp_all [State.kindOf]
      rw [this]; exact .none
    | some k => obtain ⟨k', h', hp⟩ := hk k h; rw [h']; exact .some hp
  · have : t.kindOf y = s.kindOf y := by simp [State.kindOf, a.others y e]
    rw [this]
    cases s.kindOf y with
    | none => exact .none
    | some k => exact .some (.refl k (hr y e))

theorem State.KeepsLines.kindOf (a : s.KeepsLines t) {x : ResNo} {k' : Kind} (h : t.kindOf x = some k') :
    ∃ k, s.kindOf x = some k ∧ Kind.Passes s.now (s.GuardReported x) (t.GuardReported x) k k' := by
  have hp := a.passes x
  rw [h] at hp
  generalize e : s.kindOf x = o at hp
  cases hp with | some hp => exact ⟨_, rfl, hp⟩

theorem State.KeepsLines.driveLaw (a : s.KeepsLines t) (h : s.DriveLaw) : t.DriveLaw := fun x _ hk' =>
  let ⟨k, hk, hp⟩ := a.kindOf hk'
  hp.drive (h x k hk)

theorem State.lineDef_eq_kindOf (s : State) (x : ResNo) : s.lineDef x = (s.kindOf x).bind Kind.lineDef := by
  simp only [State.lineDef, State.kindOf]; cases s.resource x <;> rfl

theorem State.KeepsLines.lineDef (a : s.KeepsLines t) (x : ResNo) : t.lineDef x = s.lineDef x := by
  rw [State.lineDef_eq_kindOf, State.lineDef_eq_kindOf]
  have hp := a.passes x
  generalize s.kindOf x = o at hp
  generalize t.kindOf x = o' at hp
  cases hp with
  | none => rfl
  | some hp => exact hp.lineDef
end

end Sys2Proof.Machine
end

section
/-! ## The lines through the shared operations -/

namespace Sys2Proof.Machine

section
variable (s : State) (x y : ResNo)

/-! ### Reports that an order leaves current -/

theorem State.guardReported_order (f : LineDef → PhaseRecord → PhaseRecord) :
    (s.order x f).GuardReported y ↔ y ≠ x ∧ s.GuardReported y :=
  State.guardReported_staleReports (s.mapPhase x f) x y

theorem State.guardReported_cool : (s.cool x).GuardReported y ↔ y ≠ x ∧ s.GuardReported y := by
  show (((s.driveIdle x).startGuard x)).GuardReported y ↔ _
  rw [State.startGuard, State.guardReported_order, State.driveIdle, State.guardReported_order]
  tauto

theorem State.guardReported_startEngage (h : (s.startEngage x).GuardReported y) : s.GuardReported y := by
  unfold State.startEngage at h
  split at h
  · exact h
  · rw [State.guardReported_report, State.guardReported_order] at h
    exact (h.resolve_right (by simp)).2
  · split at h
    · rw [State.guardReported_report, State.guardReported_order] at h
      exact (h.resolve_right (by simp)).2
    · exact ((State.guardReported_order ..).mp h).2

theorem State.guardReported_engageOrVerify (k : Port) (h : (s.engageOrVerify x k).GuardReported y) :
    s.GuardReported y := by
  unfold State.engageOrVerify at h
  split at h
  · exact ((State.guardReported_order ..).mp h).2
  · exact ((State.guardReported_order ..).mp (State.guardReported_startEngage (s.drivePattern x k) x y h)).2

theorem State.settle_driving {d : LineDef} {st : LineState} {lu : PhaseRecord} (h : s.kindOf x = some (.line d st lu))
    (hst : st = .engage ∨ st = .held) : s.settle x = s.cool x := by
  rcases hst with rfl | rfl <;> simp [State.settle, h]

theorem State.guardReported_settle (h : (s.settle x).GuardReported y) : s.GuardReported y := by
  unfold State.settle at h
  split at h
  · exact h
  · exact h
  · exact h
  · exact ((State.guardReported_order ..).mp h).2
  · exact ((State.guardReported_cool ..).mp h).2
  · exact ((State.guardReported_cool ..).mp h).2
  · exact h

/-! ### Passages -/

/-- A LINE resource enters COOLING with a fresh guard (R56, R97, R100). -/
theorem State.cool_keepsLines {d : LineDef} {st : LineState} {lu : PhaseRecord} (h : s.kindOf x = some (.line d st lu)) :
    s.KeepsLines (s.cool x) := by
  refine (State.cool_lineOrder s x).keepsLines (fun y _ hy => ((State.guardReported_cool ..).mp hy).2) fun k hk => ?_
  rw [h] at hk; cases hk
  exact ⟨_, State.kindOf_cool s x d st lu h, .cool d lu st fun hr => ((State.guardReported_cool ..).mp hr).1 rfl⟩

theorem State.setToken_keepsLines (sh : Bool) (st st' : TokenState) (h : s.kindOf x = some (.token sh st)) :
    s.KeepsLines (s.setKind x (.token sh st')) := by
  refine (State.setToken_lineOrder s x sh st st' h).keepsLines (fun y _ hy => hy) fun k hk => ?_
  rw [h] at hk; cases hk
  exact ⟨_, State.kindOf_setKind s x _ _ h, .token ..⟩

/-- A resource that lost an assigned claim is settled (R44, R56, R94, R95). -/
theorem State.settle_keepsLines : s.KeepsLines (s.settle x) := by
  refine (State.settle_lineOrder s x).keepsLines (fun y _ => State.guardReported_settle s x y) fun k hk => ?_
  refine ⟨_, State.kindOf_settle hk, ?_⟩
  have hr := State.guardReported_settle s x x
  have cooled : ∀ d st lu, k = .line d st lu → st = .engage ∨ st = .held → ¬ (s.settle x).GuardReported x := by
    rintro d st lu rfl hst
    rw [State.settle_driving s x hk hst, State.guardReported_cool]
    exact fun h => h.1 rfl
  rcases k with ⟨sh, st⟩ | ⟨d, st, lu⟩
  · cases st <;> exact .token ..
  · cases st with
    | vacant | cooling | faulted => exact .refl _ hr
    | guard => exact (Kind.Passes.guard_cooling d lu hr).2
    | verify => exact .elapsed d lu (.inr (.inl rfl)) (.inl rfl) _ (.inr rfl)
    | engage => exact .cool d lu _ (cooled d _ lu rfl (.inl rfl))
    | held => exact .cool d lu _ (cooled d _ lu rfl (.inr rfl))

/-- The choice of R85, made where the guard interval has passed; reports may have been taken before it. -/
theorem State.engageOrVerify_keepsLines (k : Port) {d : LineDef} {st : LineState} {lu : PhaseRecord}
    (h : s.kindOf x = some (.line d st lu))
    (hst : st = .vacant ∨ st = .verify ∨ (s.GuardReported x ∧ (st = .cooling ∨ st = .guard))) {v : List LineReport}
    (hv : ∀ r ∈ v, r ∈ s.lineReports) : s.KeepsLines ((s.setLineReports v).engageOrVerify x k) := by
  refine ((State.LineOrder.ofReports s x v).trans (State.engageOrVerify_lineOrder _ x k)).keepsLines
    (fun y _ hy => (State.guardReported_engageOrVerify _ x y k hy).of_fewer hv) fun k' hk => ?_
  rw [h] at hk; cases hk
  rcases State.kindOf_engageOrVerify (s.setLineReports v) x k d st lu h with hp | ⟨ph, hp⟩
  · exact ⟨_, hp, .elapsed d lu hst (.inr rfl) _ (.inl rfl)⟩
  · exact ⟨_, hp, .engage d lu hst _ (by simp)⟩

/-- The handover of a reserved item begins (R38, R84, R85). -/
theorem State.beginItem_keepsLines (p : Port) : s.KeepsLines (s.beginItem p x) := by
  unfold State.beginItem
  split
  · next h => exact State.setToken_keepsLines s x _ _ _ h
  · next d lu h =>
    refine (State.setLineState_lineOrder s x .guard).keepsLines (fun y _ hy => hy) fun k hk => ?_
    rw [h] at hk; cases hk
    exact ⟨_, State.kindOf_setLineState s x _ d _ lu h, (Kind.Passes.guard_cooling d lu id).1⟩
  · next h => exact State.engageOrVerify_keepsLines s x p h (.inl rfl) fun _ hr => hr
  · exact .refl s

/-- A resource becomes FAULTED on its idle pattern (R70, R96). -/
theorem State.faultResource_keepsLines (reason : FaultReason) : s.KeepsLines (s.faultResource x reason) := by
  unfold State.faultResource
  split
  · next d st lu h =>
    refine ((State.driveIdle_lineOrder s x).trans (State.setLineState_lineOrder _ x (.faulted reason))).keepsLines
      (fun y _ hy => ((State.guardReported_order ..).mp hy).2) fun k hk => ?_
    rw [h] at hk; cases hk
    refine ⟨_, State.kindOf_setLineState (s.driveIdle x) x _ d st _ (State.kindOf_order s x _ d st lu h), ?_⟩
    exact .fault d lu st reason fun hr => ((State.guardReported_order ..).mp hr).1 rfl
  · next h => exact State.setToken_keepsLines s x _ _ _ h
  · exact .refl s

/-- The kind part of a resource whose item is granted (R91). -/
def Kind.granted : Kind → Kind
  | .line d .engage lu => .line d .held lu
  | k => k

theorem Resource.granted_kind (r : Resource) : r.granted.kind = r.kind.granted := rfl

theorem State.kindOf_grantItem (p : Port) (h : Handle) :
    (s.grantItem p h x).kindOf y = if x = y then (s.kindOf x).map Kind.granted else s.kindOf y := by
  simp only [State.kindOf, State.grantItem_resource]
  split
  · cases s.resource x <;> simp [Resource.granted_kind]
  · rfl

/-- The grant of an item (R40, R91). -/
theorem State.grantItem_keepsLines (p : Port) (h : Handle) : s.KeepsLines (s.grantItem p h x) := by
  refine ⟨State.grantItem_now s p h x, fun y => ?_⟩
  have hr : (s.grantItem p h x).GuardReported y → s.GuardReported y :=
    (State.GuardReported.congr (State.grantItem_lineReports s p h x)).mp
  rw [State.kindOf_grantItem]
  split
  · next e =>
    subst e
    cases s.kindOf x with
    | none => exact .none
    | some k =>
      rcases k with ⟨sh, st⟩ | ⟨d, st, lu⟩
      · exact .some (.token ..)
      · cases st with
        | engage => exact .some (.hold d lu)
        | vacant | cooling | guard | verify | held | faulted => exact .some (.refl _ hr)
  · cases s.kindOf y with
    | none => exact .none
    | some k => exact .some (.refl k hr)

/-- A current "guard elapsed" of a COOLING resource is taken (R83). -/
theorem State.guardElapsed_keepsLines {d : LineDef} {lu : PhaseRecord} (h : s.kindOf x = some (.line d .cooling lu))
    (hr : s.GuardReported x) : s.KeepsLines (s.setLineState x .vacant) := by
  refine (State.setLineState_lineOrder s x .vacant).keepsLines (fun y _ hy => hy) fun k hk => ?_
  rw [h] at hk; cases hk
  exact ⟨_, State.kindOf_setLineState s x _ d _ lu h, .elapsed d lu (.inr (.inr ⟨hr, .inl rfl⟩)) (.inl rfl) lu (.inl rfl)⟩

/-- Engagement begins for port `k` (R85, R88). -/
def State.beginEngage (k : Port) : State := ((s.drivePattern x k).startEngage x).setLineState x .engage

theorem State.beginEngage_lineOrder (k : Port) : State.LineOrder x s (s.beginEngage x k) :=
  ((State.drivePattern_lineOrder s x k).trans (State.startEngage_lineOrder _ x)).trans
    (State.setLineState_lineOrder _ x _)

theorem State.kindOf_beginEngage (k : Port) {d : LineDef} {st : LineState} {lu : PhaseRecord}
    (h : s.kindOf x = some (.line d st lu)) :
    ∃ ph, (s.beginEngage x k).kindOf x = some (.line d .engage { applied := some k, phase := ph }) := by
  obtain ⟨ph, hp⟩ := State.kindOf_startEngage (s.drivePattern x k) x d st _ (State.kindOf_order s x _ d st lu h)
  exact ⟨ph, State.kindOf_setLineState _ x .engage d st _ hp⟩

/-- The release of the confirm input is seen, and engagement begins (R88). -/
theorem State.beginEngage_keepsLines (k : Port) {d : LineDef} {lu : PhaseRecord}
    (h : s.kindOf x = some (.line d .verify lu)) : s.KeepsLines (s.beginEngage x k) := by
  refine (State.beginEngage_lineOrder s x k).keepsLines (fun y _ hy => ?_) fun k' hk => ?_
  · exact ((State.guardReported_order ..).mp (State.guardReported_startEngage (s.drivePattern x k) x y hy)).2
  · rw [h] at hk; cases hk
    obtain ⟨ph, hp⟩ := State.kindOf_beginEngage s x k h
    exact ⟨_, hp, .engage d lu (.inr (.inl rfl)) _ (by simp)⟩

/-! ### The Line Unit's own passages -/

theorem State.kindOf_setPhase (ph : Phase) {d : LineDef} {st : LineState} {lu : PhaseRecord}
    (h : s.kindOf x = some (.line d st lu)) :
    (s.setPhase x ph).kindOf x = some (.line d st { lu with phase := ph }) :=
  State.kindOf_order s x (fun _ lu => { lu with phase := ph }) d st lu h

theorem State.phaseReport_lineOrder (ph : Phase) (k : LineReportKind) :
    State.LineOrder x s ((s.setPhase x ph).report x k) :=
  (State.mapPhase_lineOrder s x _).trans (State.report_lineOrder _ x k)

theorem State.guardReported_phaseReport (ph : Phase) (k : LineReportKind) :
    ((s.setPhase x ph).report x k).GuardReported y ↔ s.GuardReported y ∨ (x = y ∧ k = .guardElapsed) :=
  State.guardReported_report (s.setPhase x ph) x y k

/-- A phase timer whose time has come expires (R74). -/
theorem State.phaseEnds_keepsLines {lu : PhaseRecord} {t : Time} {k : LineReportKind} (h : s.phaseRecord x = some lu)
    (he : lu.phase.expiry = some (t, k)) (ht : t ≤ s.now) : s.KeepsLines ((s.setPhase x .quiet).report x k) := by
  obtain ⟨d, st, hk⟩ : ∃ d st, s.kindOf x = some (.line d st lu) := by
    unfold State.phaseRecord at h
    split at h <;> cases h
    exact ⟨_, _, ‹_›⟩
  refine (State.phaseReport_lineOrder s x _ k).keepsLines (fun y hy hr => ?_) fun k' hk' => ?_
  · exact ((State.guardReported_phaseReport ..).mp hr).resolve_right fun e => hy e.1.symm
  · rw [hk] at hk'; cases hk'
    refine ⟨_, State.kindOf_setPhase s x .quiet hk, ?_⟩
    have other : k ≠ .guardElapsed → ((s.setPhase x .quiet).report x k).GuardReported x → s.GuardReported x :=
      fun hne hr => ((State.guardReported_phaseReport ..).mp hr).resolve_right fun e => hne e.2
    cases hp : lu.phase <;> rw [hp] at he <;> cases he
    · exact .guardEnds d lu st hp ht
    · exact .phase d lu st .quiet (.inr ⟨_, .inl hp⟩) (other (by simp))
    · exact .phase d lu st .quiet (.inr ⟨_, .inr hp⟩) (other (by simp))

/-- A phase that meets a level is no GUARD, and its report no "guard elapsed" (R81). -/
theorem Phase.onLevel_some {ph ph' : Phase} {b : Bool} {k : LineReportKind} (h : ph.onLevel b = some (k, ph')) :
    (ph = .watch ∨ ∃ t, ph = .verify t ∨ ph = .engage t) ∧ k ≠ .guardElapsed := by
  unfold Phase.onLevel at h
  split at h <;> cases h <;> simp

/-- What the meeting of a level does, where it does anything (R78, R81). -/
theorem State.meetLevel_cases (c : ConfNo) : State.meetLevel c s x = s ∨
    ∃ d st lu k ph b, s.kindOf x = some (.line d st lu) ∧ lu.phase.onLevel b = some (k, ph)
      ∧ State.meetLevel c s x = (s.setPhase x ph).report x k := by
  unfold State.meetLevel
  repeat' split
  all_goals first
    | exact .inl rfl
    | exact .inr ⟨_, _, _, _, _, _, ‹_›, ‹_›, rfl⟩

theorem State.meetLevel_keepsLines (c : ConfNo) : s.KeepsLines (State.meetLevel c s x) := by
  rcases State.meetLevel_cases s x c with e | ⟨d, st, lu, k, ph, b, hk, hl, e⟩
  · rw [e]; exact .refl s
  · rw [e]
    obtain ⟨hph, hne⟩ := Phase.onLevel_some hl
    have hr : ∀ y, ((s.setPhase x ph).report x k).GuardReported y → s.GuardReported y :=
      fun y hy => ((State.guardReported_phaseReport ..).mp hy).resolve_right fun e => hne e.2
    refine (State.phaseReport_lineOrder s x ph k).keepsLines (fun y _ => hr y) fun k' hk' => ?_
    rw [hk] at hk'; cases hk'
    exact ⟨_, State.kindOf_setPhase s x ph hk, .phase d lu st ph hph (hr x)⟩
end

/-! ### Removal, revocation, the end of requests, reservation and grant -/

section
variable (s : State)

theorem State.setClaims_keepsLines (cs : List Claim) : s.KeepsLines (s.setClaims cs) := .same rfl rfl fun _ h => h

theorem State.setSlot_keepsLines (p : Port) (h : Handle) (v : Slot) : s.KeepsLines (s.setSlot p h v) :=
  .same rfl rfl fun _ h => h

theorem State.removeClaims_keepsLines (sel : Claim → Bool) : s.KeepsLines (s.removeClaims sel) :=
  (s.setClaims_keepsLines _).trans (.foldl State.settle State.settle_keepsLines _ _)

theorem State.notify_keepsLines (p : Port) (n : Notice) : s.KeepsLines (s.notify p n) :=
  .same (State.notify_tableEvent s p n).outside.now (State.notify_resources s p n)
    fun _ h => by rwa [State.notify_lineReports] at h

theorem State.revoke_keepsLines (x : ResNo) (reason : RevokeReason) (sel : Claim → Bool) :
    s.KeepsLines (s.revoke x reason sel) :=
  .trans (s.removeClaims_keepsLines _) (.foldl _ (fun s (c : Claim) => s.notify_keepsLines c.owner _) _ _)

theorem State.endRequest_keepsLines (p : Port) (h : Handle) (o : SlotOutcome) (n : Notice) :
    s.KeepsLines (s.endRequest p h o n) := by
  cases ho : (s.slot p h).isOpen with
  | false => rw [State.endRequest_closed s p h o n ho]; exact .refl s
  | true =>
    rw [State.endRequest_open s p h o n ho]
    exact ((s.removeClaims_keepsLines _).trans (State.notify_keepsLines _ p n)).trans (State.setSlot_keepsLines ..)

theorem State.failAll_keepsLines (rs : List (Port × Handle)) (x : ResNo) (reason : FailReason) :
    s.KeepsLines (s.failAll rs x reason) :=
  .foldl _ (fun s (r : Port × Handle) => s.endRequest_keepsLines r.1 r.2 _ _) rs s

theorem State.beginYield_keepsLines (x : ResNo) (sel : Claim → Bool) : s.KeepsLines (s.beginYield x sel) := by
  unfold State.beginYield
  dsimp only
  split
  · exact .refl s
  · split
    · exact s.revoke_keepsLines x _ _
    · exact (s.setClaims_keepsLines _).trans (.foldl _ (fun s (c : Claim) => s.notify_keepsLines c.owner _) _ _)

theorem State.grant_keepsLines (imm : Option (Port × Handle)) (p : Port) (h : Handle) :
    s.KeepsLines (State.grant imm s p h) := by
  unfold State.grant
  split
  · have items := State.KeepsLines.foldl (fun s x => s.grantItem p h x) (fun s x => s.grantItem_keepsLines x p h)
    dsimp only
    split
    · exact (items _ s).trans (State.setSlot_keepsLines ..)
    · exact ((items _ s).trans (State.notify_keepsLines _ p _)).trans (State.setSlot_keepsLines ..)
  · exact .refl s

theorem State.reserve_keepsLines (imm : Option (Port × Handle)) (p : Port) (h : Handle) :
    s.KeepsLines (State.reserve imm s p h) := by
  unfold State.reserve
  split
  · have items := State.KeepsLines.foldl (fun s x => s.beginItem p x) (fun s x => s.beginItem_keepsLines x p)
    have reserved : ∀ (cs : List Claim) (xs : List ResNo) (v : Slot),
        s.KeepsLines ((xs.foldl (fun s x => s.beginItem p x) (s.setClaims cs)).setSlot p h v) := fun cs xs v =>
      ((s.setClaims_keepsLines cs).trans (items xs _)).trans (State.setSlot_keepsLines ..)
    dsimp only
    split
    · exact (reserved ..).trans (State.grant_keepsLines _ _ p h)
    · exact reserved ..
  · exact .refl s
end

end Sys2Proof.Machine
end

section
/-! ## Claims, slots and resources in agreement -/

namespace Sys2Proof.Machine

/-- The claims, the slots and the resources agree: the clauses of R22, R23 and of the law of R7, R34 and R39 that one event
needs of the next. A resource `w` that the event has just made FAULTED is excepted until its claims have gone. -/
structure State.ConsistentBut (w : Option ResNo) (s : State) : Prop where
  oneEach : s.OneEach
  defined : ∀ c ∈ s.claims, (s.resource c.resource).isSome = true
  backed : ∀ c ∈ s.claims, ∀ h, c.state.handle = some h → (s.slot c.owner h).Backs c
  items : ∀ p h, ∀ i ∈ (s.slot p h).items, ∃ c ∈ s.claims, Claim.ofRequest p h c = true ∧ c.resource = i.resource
  shared : ∀ c ∈ s.claims, c.mode = .shared → ∀ k, s.kindOf c.resource = some k → k.isShareable = true
  agrees : ∀ x k, s.kindOf x = some k → w ≠ some x → k.Agrees (s.assigned x)
  faulted : ∀ x k, w = some x → s.kindOf x = some k → k.isFaulted = true
  complete : ∀ p h f pend, s.slot p h = .assembling f pend → ∀ i ∈ f.items, i.resource ∉ pend →
    ∀ d st lu, s.kindOf i.resource = some (.line d st lu) → st = .engage ∨ w = some i.resource

/-- The claims, the slots and the resources agree, without exception. -/
abbrev State.Consistent (s : State) : Prop := s.ConsistentBut none

theorem State.Consistent.of_laws {s : State} (pool : s.PoolLaw) (table : s.TableLaw) (law : s.AssignedLaw) :
    s.Consistent where
  oneEach := pool.oneEach
  defined := table.defined
  backed := table.backed
  items := table.items
  shared := law.shared
  agrees x k hk _ := law.agrees x k hk
  faulted _ _ h := by cases h
  complete p h f pend hs i hi hp d st lu hk := .inl (law.complete p h f pend hs i hi hp d st lu hk)

theorem State.Consistent.assignedLaw {s : State} (a : s.Consistent) : s.AssignedLaw where
  shared := a.shared
  agrees x k hk := a.agrees x k hk (by simp)
  complete p h f pend hs i hi hp d st lu hk := (a.complete p h f pend hs i hi hp d st lu hk).resolve_right (by simp)

/-! ### Views of the claims -/

theorem State.mem_assigned {s : State} {x : ResNo} {c : Claim} :
    c ∈ s.assigned x ↔ c ∈ s.claims ∧ c.resource = x ∧ c.state.isAssigned = true := by
  simp [State.assigned]

theorem Claim.ofRequest_iff {p : Port} {h : Handle} {c : Claim} :
    Claim.ofRequest p h c = true ↔ c.owner = p ∧ c.state.handle = some h := by
  simp [Claim.ofRequest]

theorem ClaimState.isAssigned_of_isReserved {st : ClaimState} (h : st.isReserved = true) : st.isAssigned = true := by
  cases st with
  | reserved => rfl
  | waiting | held => cases h

theorem ClaimState.isAssigned_of_isHeld {st : ClaimState} (h : st.isHeld = true) : st.isAssigned = true := by
  cases st with
  | held => rfl
  | waiting | reserved => cases h

theorem ClaimState.handle_of_isHeld {st : ClaimState} (h : st.isHeld = true) : st.handle = none := by
  cases st with
  | held => rfl
  | waiting | reserved => cases h

theorem Slot.items_of_closed {v : Slot} (h : v.isOpen = false) : v.items = [] := by
  cases v with
  | free | done => rfl
  | waiting | assembling => cases h

theorem Slot.Backs.isOpen {v : Slot} {c : Claim} (h : v.Backs c) : v.isOpen = true := by
  cases v with
  | waiting | assembling => rfl
  | free | done => exact h.elim

theorem eq_singleton_of_nodup {α : Type} {l : List α} {a : α} (hn : l.Nodup) (ha : a ∈ l) (h : ∀ b ∈ l, b = a) :
    l = [a] :=
  List.perm_singleton.mp ((List.perm_ext_iff_of_nodup hn (List.nodup_singleton a)).mpr fun b =>
    ⟨fun hb => List.mem_singleton.mpr (h b hb), fun hb => List.mem_singleton.mp hb ▸ ha⟩)

theorem State.OneEach.nodup {s : State} (h : s.OneEach) : s.claims.Nodup := h.of_map _

/-- A port's claim on a resource is the only one (R22). -/
theorem State.OneEach.eq {s : State} (h : s.OneEach) {c d : Claim} (hc : c ∈ s.claims) (hd : d ∈ s.claims)
    (ho : c.owner = d.owner) (hr : c.resource = d.resource) : c = d :=
  List.inj_on_of_nodup_map h hc hd (by simp [Claim.key, ho, hr])

theorem State.OneEach.assigned_eq {s : State} (h : s.OneEach) {x : ResNo} {c : Claim} (hc : c ∈ s.assigned x)
    (hu : ∀ d ∈ s.assigned x, d = c) : s.assigned x = [c] :=
  eq_singleton_of_nodup (h.nodup.filter _) hc hu

theorem State.assigned_of_map {s t : State} {g : Claim → Claim} (h : t.claims = s.claims.map g)
    (hg : ∀ c ∈ s.claims, (g c).resource = c.resource ∧ (g c).state.isAssigned = c.state.isAssigned) (x : ResNo) :
    t.assigned x = (s.assigned x).map g := by
  unfold State.assigned
  rw [h, List.filter_map]
  congr 1
  refine List.filter_congr fun c hc => ?_
  simp [hg c hc]

section
variable {s t : State} {w : Option ResNo}

/-- A claim of an open request is in the state its slot says, on a named resource (R23). -/
theorem State.ConsistentBut.backs (a : s.ConsistentBut w) {p : Port} {h : Handle} {c : Claim} (hc : c ∈ s.claims)
    (ho : Claim.ofRequest p h c = true) : (s.slot p h).Backs c := by
  obtain ⟨rfl, hh⟩ := Claim.ofRequest_iff.mp ho
  exact a.backed c hc h hh

/-- The claim of a complete LINE item stands alone on its resource (R7, R39). -/
theorem State.ConsistentBut.engaged (a : s.ConsistentBut w) {p : Port} {h : Handle} {f : Filing} {pend : List ResNo}
    (hs : s.slot p h = .assembling f pend) {i : Item} (hi : i ∈ f.items) {d : LineDef} {lu : PhaseRecord}
    (hk : s.kindOf i.resource = some (.line d .engage lu)) (hw : w ≠ some i.resource) :
    ∃ c ∈ s.claims, Claim.ofRequest p h c = true ∧ c.resource = i.resource ∧ s.assigned i.resource = [c]
      ∧ c.mode = .exclusive ∧ lu.applied = some c.owner := by
  obtain ⟨c, hc, ho, hr⟩ := a.items p h i (by rw [hs]; exact hi)
  have hb := a.backs hc ho
  rw [hs] at hb
  obtain ⟨b, hb1, -, hb3, hb4⟩ := a.agrees _ _ hk hw
  have hm : c ∈ s.assigned i.resource :=
    State.mem_assigned.mpr ⟨hc, hr, ClaimState.isAssigned_of_isReserved hb.1⟩
  rw [hb1, List.mem_singleton] at hm
  subst hm
  exact ⟨c, hc, ho, hr, hb1, hb3, hb4⟩

theorem State.ConsistentBut.congr (a : s.ConsistentBut w) (hc : t.claims = s.claims) (hs : ∀ p h, t.slot p h = s.slot p h)
    (hr : t.resources = s.resources) : t.ConsistentBut w := by
  have hr' : ∀ x, t.resource x = s.resource x := fun x => by simp [State.resource, hr]
  have hk : ∀ x, t.kindOf x = s.kindOf x := fun x => by simp [State.kindOf, hr']
  have ha : ∀ x, t.assigned x = s.assigned x := fun x => by simp [State.assigned, hc]
  constructor
  · unfold State.OneEach; rw [hc]; exact a.oneEach
  · simpa [hc, hr'] using a.defined
  · simpa only [hc, hs] using a.backed
  · simpa only [hc, hs] using a.items
  · simpa only [hc, hk] using a.shared
  · simpa only [ha, hk] using a.agrees
  · simpa only [hk] using a.faulted
  · simpa only [hs, hk] using a.complete

/-! ### A passage of one resource -/

/-- A passage of a kind part that the claims assigned on it allow (R7). -/
structure Kind.Allowed (as : List Claim) (k k' : Kind) : Prop where
  shareable : k'.isShareable = k.isShareable
  agrees : k.Agrees as → k'.Agrees as
  engage : ∀ d lu, k = .line d .engage lu → ∃ lu', k' = .line d .engage lu'

theorem State.Consistent.passage {x : ResNo} (a : s.Consistent) (o : State.LineOrder x s t)
    (hk : ∀ k k', s.kindOf x = some k → t.kindOf x = some k' → Kind.Allowed (s.assigned x) k k') : t.Consistent := by
  have hslot : ∀ p h, t.slot p h = s.slot p h := fun p h => by simp [State.slot, o.slots]
  have hass : ∀ y, t.assigned y = s.assigned y := fun y => by simp [State.assigned, o.claims]
  have hkind : ∀ y k', t.kindOf y = some k' → ∃ k, s.kindOf y = some k ∧ Kind.Allowed (s.assigned y) k k' := by
    intro y k' hy
    by_cases e : y = x
    · subst e
      have h1 : (t.resource y).isSome = (s.resource y).isSome := o.isSome y
      obtain ⟨r', hr', -⟩ := State.kindOf_eq_some hy
      rw [hr'] at h1
      obtain ⟨r, hr⟩ := Option.isSome_iff_exists.mp h1.symm
      have hs : s.kindOf y = some r.kind := by simp [State.kindOf, hr]
      exact ⟨_, hs, hk _ _ hs hy⟩
    · exact ⟨k', by simpa [State.kindOf, o.others y e] using hy, ⟨rfl, id, fun d lu e => ⟨lu, e⟩⟩⟩
  constructor
  · unfold State.OneEach; rw [o.claims]; exact a.oneEach
  · simpa [o.claims, o.isSome] using a.defined
  · simpa only [o.claims, hslot] using a.backed
  · simpa only [o.claims, hslot] using a.items
  · intro c hc hm k' hk'
    rw [o.claims] at hc
    obtain ⟨k, hk, hal⟩ := hkind _ _ hk'
    rw [hal.shareable]; exact a.shared c hc hm k hk
  · intro y k' hk' hw
    obtain ⟨k, hk, hal⟩ := hkind _ _ hk'
    rw [hass]; exact hal.agrees (a.agrees y k hk hw)
  · exact nofun
  · intro p h f pend hs i hi hp d st lu hk'
    rw [hslot] at hs
    obtain ⟨k, hk, hal⟩ := hkind _ _ hk'
    cases k with
    | token sh st' =>
      have hl : t.lineDef i.resource = s.lineDef i.resource := by
        by_cases e : i.resource = x
        · rw [e]; exact o.lineDef
        · simp [State.lineDef, o.others _ e]
      rw [State.lineDef_eq_kindOf, State.lineDef_eq_kindOf, hk', hk] at hl
      cases hl
    | line d' st' lu' =>
      obtain rfl := (a.complete p h f pend hs i hi hp d' st' lu' hk).resolve_right (by simp)
      obtain ⟨lu'', e⟩ := hal.engage d' lu' rfl
      cases e
      exact .inl rfl

/-- The phase of a LINE resource plays no part in the agreement with its claims. -/
theorem Kind.Allowed.phase (as : List Claim) (d : LineDef) (st : LineState) (lu : PhaseRecord) (ph : Phase) :
    Kind.Allowed as (.line d st lu) (.line d st { lu with phase := ph }) where
  shareable := rfl
  agrees h := by cases st <;> exact h
  engage d' lu' e := by cases e; exact ⟨_, rfl⟩

/-- A LINE resource that is not in ENGAGE passes to a state its assigned claims agree with. -/
theorem Kind.Allowed.line {as : List Claim} {d : LineDef} {st st' : LineState} {lu lu' : PhaseRecord} (hst : st ≠ .engage)
    (h : (Kind.line d st lu).Agrees as → (Kind.line d st' lu').Agrees as) :
    Kind.Allowed as (.line d st lu) (.line d st' lu') where
  shareable := rfl
  agrees := h
  engage d' lu' e := by cases e; exact absurd rfl hst
end

/-! ### Removal -/

/-- Between `s` and `u` the claims satisfying `sel` have been removed, and of every request either no claim has gone and its
slot stands, or all have and its slot is closed. -/
structure State.Removes (s u : State) (sel : Claim → Bool) : Prop where
  claims : u.claims = s.claims.filter fun c => !sel c
  resource : ∀ x, u.resource x = (s.removeClaims sel).resource x
  slots : ∀ p h,
    (u.slot p h = s.slot p h ∧ ∀ c ∈ s.claims, Claim.ofRequest p h c = true → sel c = false)
    ∨ ((u.slot p h).isOpen = false ∧ ∀ c ∈ s.claims, Claim.ofRequest p h c = true → sel c = true)

theorem Kind.settled_isShareable (k : Kind) (b : Bool) (now : Time) :
    (k.settled b now).isShareable = k.isShareable := by
  rcases k with ⟨sh, st⟩ | ⟨d, st, lu⟩ <;> cases st <;> rfl

theorem Kind.settled_lineDef (k : Kind) (b : Bool) (now : Time) : (k.settled b now).lineDef = k.lineDef := by
  rcases k with ⟨sh, st⟩ | ⟨d, st, lu⟩ <;> cases st <;> rfl

theorem Kind.settled_faulted {k : Kind} (h : k.isFaulted = true) (b : Bool) (now : Time) : k.settled b now = k := by
  cases k with
  | token sh st =>
    cases st with
    | faulted => rfl
    | vacant | occupied => cases h
  | line d st lu =>
    cases st with
    | faulted => rfl
    | vacant | cooling | guard | verify | engage | held => cases h

/-- A FAULTED resource agrees with an empty assigned set (R7). -/
theorem Kind.agrees_of_isFaulted {k : Kind} (h : k.isFaulted = true) : k.Agrees [] := by
  cases k with
  | token sh st =>
    cases st with
    | faulted => rfl
    | vacant | occupied => cases h
  | line d st lu =>
    cases st with
    | faulted => rfl
    | vacant | cooling | guard | verify | engage | held => cases h

/-- A resource that loses an assigned claim is settled in agreement with the rest (R44, R56). -/
theorem Kind.Agrees.settled {k : Kind} {as : List Claim} (h : k.Agrees as) (sel : Claim → Bool)
    (hl : ∃ c ∈ as, sel c = true) (now : Time) :
    (k.settled (as.filter fun c => !sel c).isEmpty now).Agrees (as.filter fun c => !sel c) := by
  obtain ⟨c, hc, hs⟩ := hl
  have single : ∀ b, as = [b] → as.filter (fun c => !sel c) = [] := by
    rintro b rfl
    rw [List.mem_singleton] at hc
    subst hc
    simp [hs]
  have nonempty : as ≠ [] := List.ne_nil_of_mem hc
  rcases k with ⟨sh, st⟩ | ⟨d, st, lu⟩
  · cases st with
    | vacant | faulted => exact absurd h nonempty
    | occupied =>
      cases hf : as.filter fun c => !sel c with
      | nil => exact rfl
      | cons => exact List.cons_ne_nil _ _
  · cases st with
    | vacant | cooling | faulted => exact absurd h nonempty
    | guard | verify | engage | held => obtain ⟨b, hb, -⟩ := h; exact single b hb

section
variable {s u : State} {w : Option ResNo} {sel : Claim → Bool}

theorem State.Removes.assigned (r : s.Removes u sel) (x : ResNo) :
    u.assigned x = (s.assigned x).filter fun c => !sel c := by
  simp [State.assigned, r.claims, List.filter_filter, Bool.and_comm]

theorem State.Removes.kindOf (r : s.Removes u sel) (x : ResNo) :
    u.kindOf x = if ∃ c ∈ s.assigned x, sel c = true then
        (s.kindOf x).map fun k => k.settled ((s.assigned x).filter fun c => !sel c).isEmpty s.now
      else s.kindOf x := by
  simp only [State.kindOf, r.resource, State.removeClaims_resource]
  split
  · cases s.resource x <;> rfl
  · rfl

/-- Each resource after a removal, from what it was. -/
theorem State.Removes.kindOf_some (r : s.Removes u sel) {x : ResNo} {k' : Kind} (h : u.kindOf x = some k') :
    ∃ k, s.kindOf x = some k ∧ ((∀ c ∈ s.assigned x, sel c = false) ∧ k' = k
      ∨ (∃ c ∈ s.assigned x, sel c = true) ∧ k' = k.settled ((s.assigned x).filter fun c => !sel c).isEmpty s.now) := by
  rw [r.kindOf] at h
  split at h
  · next hl =>
    obtain ⟨k, hk, rfl⟩ := Option.map_eq_some_iff.mp h
    exact ⟨k, hk, .inr ⟨hl, rfl⟩⟩
  · next hl =>
    refine ⟨k', h, .inl ⟨fun c hc => ?_, rfl⟩⟩
    by_contra hs
    exact hl ⟨c, hc, by simpa using hs⟩

theorem State.ConsistentBut.removes (a : s.ConsistentBut w) (r : s.Removes u sel) : u.ConsistentBut w := by
  have kept : ∀ c ∈ u.claims, c ∈ s.claims ∧ sel c = false := by
    intro c hc; rw [r.claims, List.mem_filter] at hc; simpa using hc
  have slot : ∀ p h, (u.slot p h).isOpen = true →
      u.slot p h = s.slot p h ∧ ∀ c ∈ s.claims, Claim.ofRequest p h c = true → sel c = false := by
    intro p h ho
    refine (r.slots p h).resolve_right fun hc => ?_
    rw [hc.1] at ho; cases ho
  constructor
  · exact (r.claims ▸ (List.filter_sublist.map _) : (u.claims.map Claim.key).Sublist _).nodup a.oneEach
  · intro c hc
    rw [r.resource, (State.removeClaims_tableEvent s sel).defined]
    exact a.defined c (kept c hc).1
  · intro c hc h hh
    obtain ⟨hm, hs⟩ := kept c hc
    have ho : Claim.ofRequest c.owner h c = true := Claim.ofRequest_iff.mpr ⟨rfl, hh⟩
    rcases r.slots c.owner h with ⟨e, -⟩ | ⟨-, hall⟩
    · rw [e]; exact a.backed c hm h hh
    · rw [hall c hm ho] at hs; cases hs
  · intro p h i hi
    have ho : (u.slot p h).isOpen = true := by
      by_contra hc
      rw [Slot.items_of_closed (by simpa using hc)] at hi; cases hi
    obtain ⟨e, hall⟩ := slot p h ho
    rw [e] at hi
    obtain ⟨c, hc, hof, hr⟩ := a.items p h i hi
    exact ⟨c, by rw [r.claims, List.mem_filter]; simp [hc, hall c hc hof], hof, hr⟩
  · intro c hc hm k' hk'
    obtain ⟨k, hk, ⟨-, rfl⟩ | ⟨-, rfl⟩⟩ := r.kindOf_some hk'
    · exact a.shared c (kept c hc).1 hm _ hk
    · rw [Kind.settled_isShareable]; exact a.shared c (kept c hc).1 hm _ hk
  · intro x k' hk' hw
    rw [r.assigned]
    obtain ⟨k, hk, ⟨hn, rfl⟩ | ⟨hl, rfl⟩⟩ := r.kindOf_some hk'
    · rw [List.filter_eq_self.mpr fun c hc => by simp [hn c hc]]
      exact a.agrees x _ hk hw
    · exact (a.agrees x k hk hw).settled sel hl s.now
  · intro x k' hw hk'
    obtain ⟨k, hk, ⟨-, rfl⟩ | ⟨-, rfl⟩⟩ := r.kindOf_some hk'
    · exact a.faulted x _ hw hk
    · have hf := a.faulted x k hw hk
      rw [Kind.settled_faulted hf]; exact hf
  · intro p h f pend hs i hi hp d st lu hk'
    obtain ⟨e, hall⟩ := slot p h (by rw [hs]; rfl)
    rw [e] at hs
    by_cases hw : w = some i.resource
    · exact .inr hw
    obtain ⟨k, hk, hc⟩ := r.kindOf_some hk'
    have hl : k.lineDef = some d := by
      rcases hc with ⟨-, rfl⟩ | ⟨-, e⟩
      · rfl
      · rw [← Kind.settled_lineDef, ← e]; rfl
    cases k with
    | token => cases hl
    | line d' st' lu' =>
      obtain rfl := (a.complete p h f pend hs i hi hp d' st' lu' hk).resolve_right hw
      obtain ⟨c, hcm, hof, -, has, -⟩ := a.engaged hs hi hk hw
      rcases hc with ⟨-, e⟩ | ⟨⟨b, hb, hsel⟩, -⟩
      · cases e; exact .inl rfl
      · rw [has, List.mem_singleton] at hb
        rw [hb, hall c hcm hof] at hsel; cases hsel
end

end Sys2Proof.Machine
end

section
/-! ## The agreement through the shared operations -/

namespace Sys2Proof.Machine

section
variable {s : State} {w : Option ResNo}

/-! ### Removals -/

theorem State.slot_removeClaims (s : State) (sel : Claim → Bool) (q : Port) (k : Handle) :
    (s.removeClaims sel).slot q k = s.slot q k := by simp [State.slot, State.removeClaims_slots]

theorem State.slot_notify (s : State) (p : Port) (n : Notice) (q : Port) (k : Handle) :
    (s.notify p n).slot q k = s.slot q k := by simp [State.slot, State.notify_slots]

theorem State.ConsistentBut.notify (a : s.ConsistentBut w) (p : Port) (n : Notice) : (s.notify p n).ConsistentBut w :=
  a.congr (s.notify_claims p n) (s.slot_notify p n) (s.notify_resources p n)

theorem State.ConsistentBut.foldl {α : Type} (f : State → α → State)
    (hf : ∀ (s : State) (b : α), s.ConsistentBut w → (f s b).ConsistentBut w) (xs : List α) (a : s.ConsistentBut w) :
    (xs.foldl f s).ConsistentBut w := by
  induction xs generalizing s with
  | nil => exact a
  | cons b xs ih => exact ih (hf s b a)

/-- Holdings are removed (R64). -/
theorem State.removeClaims_held_removes (s : State) (sel : Claim → Bool) (h : ∀ c ∈ s.claims, sel c = true → c.state.isHeld = true) :
    s.Removes (s.removeClaims sel) sel := by
  refine ⟨State.removeClaims_claims s sel, fun _ => rfl, fun p k => .inl ⟨s.slot_removeClaims sel p k, fun c hc ho => ?_⟩⟩
  by_contra hs
  have := ClaimState.handle_of_isHeld (h c hc (by simpa using hs))
  rw [(Claim.ofRequest_iff.mp ho).2] at this; cases this

theorem State.ConsistentBut.revoke (a : s.ConsistentBut w) (x : ResNo) (reason : RevokeReason) (sel : Claim → Bool) :
    (s.revoke x reason sel).ConsistentBut w := by
  unfold State.revoke
  refine .foldl _ (fun s c a => a.notify _ _) _ (a.removes (State.removeClaims_held_removes s _ fun c _ h => ?_))
  simp only [Bool.and_eq_true] at h
  exact h.1.2

/-- The claims of one request are removed and its slot is closed (R42, R46, R48, R49). -/
theorem State.closeRequest_removes (s : State) (p : Port) (h : Handle) (v : Slot) (hv : v.isOpen = false) :
    s.Removes ((s.removeClaims (Claim.ofRequest p h)).setSlot p h v) (Claim.ofRequest p h) := by
  refine ⟨State.removeClaims_claims s _, fun _ => rfl, fun q k => ?_⟩
  by_cases e : p = q ∧ h = k
  · obtain ⟨rfl, rfl⟩ := e
    exact .inr ⟨by simpa using hv, fun _ _ ho => ho⟩
  · refine .inl ⟨by simp [e, State.slot_removeClaims], fun c _ ho => ?_⟩
    by_contra hs
    rw [Bool.not_eq_false, Claim.ofRequest_iff] at hs
    rw [Claim.ofRequest_iff] at ho
    exact e ⟨hs.1.symm.trans ho.1, Option.some.inj (hs.2.symm.trans ho.2)⟩

theorem State.ConsistentBut.endRequest (a : s.ConsistentBut w) (p : Port) (h : Handle) (o : SlotOutcome) (n : Notice) :
    (s.endRequest p h o n).ConsistentBut w := by
  cases ho : (s.slot p h).isOpen with
  | false => rw [State.endRequest_closed s p h o n ho]; exact a
  | true =>
    rw [State.endRequest_open s p h o n ho]
    refine (a.removes (State.closeRequest_removes s p h _ (Slot.ended_isOpen (s.slot p h) o))).congr
      (State.notify_claims _ p n) (fun q k => ?_) (State.notify_resources _ p n)
    simp [State.slot_notify]

theorem State.ConsistentBut.failAll (a : s.ConsistentBut w) (rs : List (Port × Handle)) (x : ResNo) (reason : FailReason) :
    (s.failAll rs x reason).ConsistentBut w :=
  .foldl _ (fun _ r b => b.endRequest r.1 r.2 _ _) rs a

/-- The claims of a port are removed and its slots become FREE (R52). -/
theorem State.reclaim_removes (s : State) (p : Port) :
    s.Removes ((s.removeClaims (Claim.ofPort p)).freeSlots p) (Claim.ofPort p) := by
  refine ⟨State.removeClaims_claims s _, fun _ => rfl, fun q k => ?_⟩
  by_cases e : p = q
  · subst e
    refine .inr ⟨by simp [Slot.isOpen], fun c _ ho => ?_⟩
    simp [Claim.ofPort, (Claim.ofRequest_iff.mp ho).1]
  · refine .inl ⟨by simp [e, State.slot_removeClaims], fun c _ ho => ?_⟩
    simp [Claim.ofPort, (Claim.ofRequest_iff.mp ho).1, Ne.symm e]

/-! ### Changes of the hold phase -/

/-- The claim is HELD in `c'`, and `c'` is `c` in every other field. -/
def Claim.HeldAs (c c' : Claim) : Prop := ∃ g ph, c' = { c with state := .held g ph }

theorem Kind.Agrees.map {k : Kind} {as : List Claim} {g : Claim → Claim} (h : k.Agrees as)
    (hg : ∀ c ∈ as, g c = c ∨ (c.state.isHeld = true ∧ c.HeldAs (g c))) : k.Agrees (as.map g) := by
  have single : ∀ b, as = [b] → b.state.isReserved = true → as.map g = [b] := by
    rintro b rfl hb
    rcases hg b (by simp) with e | ⟨e, -⟩
    · simp [e]
    · revert hb e; cases b.state <;> simp [ClaimState.isHeld, ClaimState.isReserved]
  rcases k with ⟨sh, st⟩ | ⟨d, st, lu⟩
  · cases st with
    | vacant | faulted => exact List.map_eq_nil_iff.mpr h
    | occupied => exact fun e => h (List.map_eq_nil_iff.mp e)
  · cases st with
    | vacant | cooling | faulted => exact List.map_eq_nil_iff.mpr h
    | guard | verify | engage =>
      obtain ⟨b, hb, hr, hm⟩ := h
      exact ⟨b, single b hb hr, hr, hm⟩
    | held =>
      obtain ⟨b, rfl, hh, hm, ha⟩ := h
      refine ⟨g b, rfl, ?_⟩
      rcases hg b (by simp) with e | ⟨-, gr, ph, e⟩ <;> rw [e]
      · exact ⟨hh, hm, ha⟩
      · exact ⟨rfl, hm, ha⟩

theorem State.ConsistentBut.mapHeld (a : s.ConsistentBut w) (g : Claim → Claim)
    (hg : ∀ c, g c = c ∨ (c.state.isHeld = true ∧ c.HeldAs (g c))) : (s.setClaims (s.claims.map g)).ConsistentBut w := by
  have key : ∀ c, (g c).owner = c.owner ∧ (g c).resource = c.resource ∧ (g c).mode = c.mode
      ∧ (g c).state.handle = c.state.handle ∧ (g c).state.isAssigned = c.state.isAssigned := by
    intro c
    rcases hg c with e | ⟨hh, gr, ph, e⟩ <;> rw [e]
    · exact ⟨rfl, rfl, rfl, rfl, rfl⟩
    · exact ⟨rfl, rfl, rfl, (ClaimState.handle_of_isHeld hh).symm, (ClaimState.isAssigned_of_isHeld hh).symm⟩
  have same : ∀ c h, c.state.handle = some h → g c = c := fun c h hh =>
    (hg c).resolve_right fun e => by rw [ClaimState.handle_of_isHeld e.1] at hh; cases hh
  have hass : ∀ x, (s.setClaims (s.claims.map g)).assigned x = (s.assigned x).map g :=
    State.assigned_of_map rfl fun c _ => ⟨(key c).2.1, (key c).2.2.2.2⟩
  constructor
  · have hk : s.claims.map (Claim.key ∘ g) = s.claims.map Claim.key :=
      List.map_congr_left fun c _ => by simp [Claim.key, key c]
    unfold State.OneEach
    rw [State.claims_setClaims, List.map_map, hk]
    exact a.oneEach
  · intro c hc
    obtain ⟨d, hd, rfl⟩ := List.mem_map.mp hc
    rw [(key d).2.1]; exact a.defined d hd
  · intro c hc h hh
    obtain ⟨d, hd, rfl⟩ := List.mem_map.mp hc
    rw [(key d).2.2.2.1] at hh
    rw [same d h hh]; exact a.backed d hd h hh
  · intro p h i hi
    obtain ⟨c, hc, ho, hr⟩ := a.items p h i hi
    exact ⟨c, List.mem_map.mpr ⟨c, hc, same c h (Claim.ofRequest_iff.mp ho).2⟩, ho, hr⟩
  · intro c hc hm
    obtain ⟨d, hd, rfl⟩ := List.mem_map.mp hc
    rw [(key d).2.1]
    rw [(key d).2.2.1] at hm
    exact a.shared d hd hm
  · intro x k hk hw
    rw [hass]; exact (a.agrees x k hk hw).map fun c _ => hg c
  · exact a.faulted
  · exact a.complete

theorem ClaimState.isHeld_of_isOvertime {st : ClaimState} (h : st.isOvertime = true) : st.isHeld = true := by
  cases st with
  | held => rfl
  | waiting | reserved => cases h

theorem State.ConsistentBut.beginYield (a : s.ConsistentBut w) (x : ResNo) (sel : Claim → Bool) :
    (s.beginYield x sel).ConsistentBut w := by
  unfold State.beginYield
  dsimp only
  split
  · exact a
  · split
    · exact a.revoke x _ _
    · refine .foldl _ (fun s c a => a.notify _ _) _ (a.mapHeld _ fun c => ?_)
      split
      · next h =>
        simp only [Bool.and_eq_true] at h
        exact .inr ⟨ClaimState.isHeld_of_isOvertime h.1.2, _, _, rfl⟩
      · exact .inl rfl

theorem State.ConsistentBut.setOvertime (a : s.ConsistentBut w) (p : Port) (x : ResNo) :
    (s.setOvertime p x).ConsistentBut w := by
  refine a.mapHeld _ fun c => ?_
  split
  · next h =>
    simp only [Claim.isHolding, Bool.and_eq_true] at h
    exact .inr ⟨h.2, _, _, rfl⟩
  · exact .inl rfl

/-- A slot that holds no open request, and so no claim's, becomes FREE (R24). -/
theorem State.ConsistentBut.freeClosed (a : s.ConsistentBut w) (p : Port) (h : Handle)
    (ho : (s.slot p h).isOpen = false) : (s.setSlot p h .free).ConsistentBut w := by
  have unchanged : ∀ q k, ((s.setSlot p h .free).slot q k).isOpen = true → (s.setSlot p h .free).slot q k = s.slot q k := by
    intro q k hq
    by_cases e : p = q ∧ h = k
    · simp [e, Slot.isOpen] at hq
    · simp [e]
  constructor
  · exact a.oneEach
  · exact a.defined
  · intro c hc k hk
    have hb := a.backed c hc k hk
    by_cases e : p = c.owner ∧ h = k
    · rw [← e.1, ← e.2] at hb
      rw [hb.isOpen] at ho; cases ho
    · simpa [e] using hb
  · intro q k i hi
    rw [unchanged q k] at hi
    · exact a.items q k i hi
    · by_contra hc
      rw [Slot.items_of_closed (by simpa using hc)] at hi; cases hi
  · exact a.shared
  · exact a.agrees
  · exact a.faulted
  · intro q k f pend hs
    rw [unchanged q k (by rw [hs]; rfl)] at hs
    exact a.complete q k f pend hs
end

/-! ### A request's claims in a new state -/

/-- Between `s` and `u` the claims of one request have come to the states that `g` gives them, with its slot and the resources
it names, and no others. -/
structure State.Retakes (s u : State) (p : Port) (h : Handle) (g : Claim → Claim) (v : Slot) : Prop where
  claims : u.claims = s.claims.map g
  own : ∀ c ∈ s.claims, Claim.ofRequest p h c = true →
    (g c).owner = c.owner ∧ (g c).resource = c.resource ∧ (g c).mode = c.mode
  other : ∀ c, Claim.ofRequest p h c ≠ true → g c = c
  slot : ∀ q k, u.slot q k = if p = q ∧ h = k then v else s.slot q k
  defined : ∀ x, (u.resource x).isSome = (s.resource x).isSome
  unnamed : ∀ x, (∀ c ∈ s.claims, Claim.ofRequest p h c = true → c.resource ≠ x) → u.kindOf x = s.kindOf x
  named : ∀ c ∈ s.claims, Claim.ofRequest p h c = true → ∀ k', u.kindOf c.resource = some k' →
    ∃ k, s.kindOf c.resource = some k ∧ k'.lineDef = k.lineDef ∧ k'.isShareable = k.isShareable
      ∧ k'.Agrees (u.assigned c.resource)
  apart : ∀ c ∈ s.claims, Claim.ofRequest p h c = true → ∀ d lu, s.kindOf c.resource = some (.line d .engage lu) →
    c ∈ s.assigned c.resource
  backed : ∀ c ∈ s.claims, Claim.ofRequest p h c = true → ∀ k, (g c).state.handle = some k → k = h ∧ v.Backs (g c)
  items : ∀ i ∈ v.items, ∃ c ∈ s.claims, Claim.ofRequest p h c = true ∧ Claim.ofRequest p h (g c) = true
    ∧ c.resource = i.resource
  complete : ∀ f pend, v = .assembling f pend → ∀ i ∈ f.items, i.resource ∉ pend → ∀ d st lu,
    u.kindOf i.resource ≠ some (.line d st lu)

section
variable {s u : State} {p : Port} {h : Handle} {g : Claim → Claim} {v : Slot}

theorem State.Retakes.kept (r : s.Retakes u p h g v) {c : Claim} (hc : c ∈ s.claims) :
    (g c).owner = c.owner ∧ (g c).resource = c.resource ∧ (g c).mode = c.mode := by
  by_cases ho : Claim.ofRequest p h c = true
  · exact r.own c hc ho
  · rw [r.other c ho]; exact ⟨rfl, rfl, rfl⟩

theorem Claim.ofRequest_unique {p q : Port} {h k : Handle} {c : Claim} (a : Claim.ofRequest p h c = true)
    (b : Claim.ofRequest q k c = true) : p = q ∧ h = k := by
  rw [Claim.ofRequest_iff] at a b
  exact ⟨a.1.symm.trans b.1, Option.some.inj (a.2.symm.trans b.2)⟩

theorem State.Retakes.assigned_unnamed (r : s.Retakes u p h g v) {x : ResNo}
    (hx : ∀ c ∈ s.claims, Claim.ofRequest p h c = true → c.resource ≠ x) : u.assigned x = s.assigned x := by
  have same : ∀ c ∈ s.claims, (g c).resource = x ∨ c.resource = x → g c = c := by
    refine fun c hc e => r.other c fun ho => hx c hc ho ?_
    rwa [(r.kept hc).2.1, or_self] at e
  unfold State.assigned
  rw [r.claims, List.filter_map]
  rw [List.filter_congr (q := fun c => c.resource == x && c.state.isAssigned)]
  · refine (List.map_congr_left fun c hc => ?_).trans (List.map_id _)
    rw [List.mem_filter] at hc
    simp only [Bool.and_eq_true, beq_iff_eq] at hc
    exact same c hc.1 (.inr hc.2.1)
  · intro c hc
    by_cases e : (g c).resource = x ∨ c.resource = x
    · simp [same c hc e]
    · rw [not_or] at e
      simp [beq_eq_false_iff_ne.mpr e.1, beq_eq_false_iff_ne.mpr e.2]

/-- Each resource after the change, from what it was. -/
theorem State.Retakes.kindOf (r : s.Retakes u p h g v) {x : ResNo} {k' : Kind} (hk' : u.kindOf x = some k') :
    ∃ k, s.kindOf x = some k ∧ k'.lineDef = k.lineDef ∧ k'.isShareable = k.isShareable
      ∧ (k.Agrees (s.assigned x) → k'.Agrees (u.assigned x)) := by
  by_cases hx : ∀ c ∈ s.claims, Claim.ofRequest p h c = true → c.resource ≠ x
  · rw [r.unnamed x hx] at hk'
    exact ⟨k', hk', rfl, rfl, fun a => by rwa [r.assigned_unnamed hx]⟩
  · push Not at hx
    obtain ⟨c, hc, ho, rfl⟩ := hx
    obtain ⟨k, hk, h1, h2, h3⟩ := r.named c hc ho k' hk'
    exact ⟨k, hk, h1, h2, fun _ => h3⟩

theorem State.Consistent.retakes (a : s.Consistent) (r : s.Retakes u p h g v) : u.Consistent := by
  have from' : ∀ c' ∈ u.claims, ∃ c ∈ s.claims, g c = c' := fun c' hc' => by
    rw [r.claims] at hc'; exact List.mem_map.mp hc'
  constructor
  · have hk : s.claims.map (Claim.key ∘ g) = s.claims.map Claim.key :=
      List.map_congr_left fun c hc => by simp [Claim.key, r.kept hc]
    unfold State.OneEach
    rw [r.claims, List.map_map, hk]
    exact a.oneEach
  · intro c' hc'
    obtain ⟨c, hc, rfl⟩ := from' c' hc'
    rw [(r.kept hc).2.1, r.defined]; exact a.defined c hc
  · intro c' hc' k hk
    obtain ⟨c, hc, rfl⟩ := from' c' hc'
    by_cases ho : Claim.ofRequest p h c = true
    · obtain ⟨rfl, hb⟩ := r.backed c hc ho k hk
      rwa [(r.kept hc).1, r.slot, if_pos ⟨(Claim.ofRequest_iff.mp ho).1.symm, rfl⟩]
    · rw [r.other c ho] at hk ⊢
      rw [r.slot, if_neg fun e => ho (Claim.ofRequest_iff.mpr ⟨e.1.symm, by rw [hk, e.2]⟩)]
      exact a.backed c hc k hk
  · intro q k i hi
    rw [r.slot] at hi
    split at hi
    · next e =>
      obtain ⟨rfl, rfl⟩ := e
      obtain ⟨c, hc, -, ho', hr⟩ := r.items i hi
      exact ⟨g c, by rw [r.claims]; exact List.mem_map_of_mem hc, ho', by rw [(r.kept hc).2.1, hr]⟩
    · next e =>
      obtain ⟨c, hc, ho, hr⟩ := a.items q k i hi
      have : g c = c := r.other c fun ho' => e (Claim.ofRequest_unique ho' ho)
      exact ⟨c, by rw [r.claims]; exact List.mem_map.mpr ⟨c, hc, this⟩, ho, hr⟩
  · intro c' hc' hm k' hk'
    obtain ⟨c, hc, rfl⟩ := from' c' hc'
    rw [(r.kept hc).2.1] at hk'
    rw [(r.kept hc).2.2] at hm
    obtain ⟨k, hk, -, hsh, -⟩ := r.kindOf hk'
    rw [hsh]; exact a.shared c hc hm k hk
  · intro x k' hk' _
    obtain ⟨k, hk, -, -, hag⟩ := r.kindOf hk'
    exact hag (a.agrees x k hk (by simp))
  · exact nofun
  · intro q k f pend hs i hi hp d st lu hk'
    rw [r.slot] at hs
    split at hs
    · exact absurd hk' (r.complete f pend hs i hi hp d st lu)
    · next e =>
      obtain ⟨k0, hk0, hl, -⟩ := r.kindOf hk'
      cases k0 with
      | token => cases hl
      | line d0 st0 lu0 =>
        obtain rfl := (a.complete q k f pend hs i hi hp d0 st0 lu0 hk0).resolve_right (by simp)
        obtain ⟨c, -, ho, -, has, -⟩ := a.engaged hs hi hk0 (by simp)
        have hx : ∀ b ∈ s.claims, Claim.ofRequest p h b = true → b.resource ≠ i.resource := by
          intro b hb hob hbr
          have hm := r.apart b hb hob d0 lu0 (by rw [hbr]; exact hk0)
          rw [hbr, has, List.mem_singleton] at hm
          subst hm
          exact e (Claim.ofRequest_unique hob ho)
        rw [r.unnamed _ hx, hk0] at hk'
        cases hk'
        exact .inl rfl
end

/-! ### Grant -/

section
variable (s : State) (p : Port) (h : Handle) (xs : List ResNo)

theorem Kind.granted_granted (k : Kind) : k.granted.granted = k.granted := by
  rcases k with ⟨sh, st⟩ | ⟨d, st, lu⟩ <;> cases st <;> rfl

theorem Kind.granted_isShareable (k : Kind) : k.granted.isShareable = k.isShareable := by
  rcases k with ⟨sh, st⟩ | ⟨d, st, lu⟩ <;> cases st <;> rfl

theorem Kind.granted_lineDef (k : Kind) : k.granted.lineDef = k.lineDef := by
  rcases k with ⟨sh, st⟩ | ⟨d, st, lu⟩ <;> cases st <;> rfl

theorem State.foldl_grantItem_kindOf (y : ResNo) :
    (xs.foldl (fun s x => s.grantItem p h x) s).kindOf y =
      if y ∈ xs then (s.kindOf y).map Kind.granted else s.kindOf y := by
  induction xs generalizing s with
  | nil => simp
  | cons x xs ih =>
    rw [List.foldl_cons, ih, State.kindOf_grantItem]
    by_cases e : x = y
    · subst e
      by_cases hm : x ∈ xs <;> simp [hm, Function.comp_def, Kind.granted_granted]
    · simp [e, Ne.symm e]

/-- The RESERVED claims of a request on granted items become HELD, and no other claim changes (R40). -/
theorem State.foldl_grantItem_claims (hx : ∀ x ∈ xs, (s.resource x).isSome = true) :
    ∃ g, (xs.foldl (fun s x => s.grantItem p h x) s).claims = s.claims.map g ∧ ∀ c,
      if Claim.ofRequest p h c = true ∧ c.state.isReserved = true ∧ c.resource ∈ xs then c.HeldAs (g c) else g c = c := by
  induction xs generalizing s with
  | nil => exact ⟨id, by simp, fun c => by simp⟩
  | cons x xs ih =>
    obtain ⟨g, hg, hc⟩ := ih (s.grantItem p h x) fun y hy => by
      rw [(State.grantItem_tableEvent s p h x).defined]; exact hx y (List.mem_cons_of_mem _ hy)
    refine ⟨fun c => g (if Claim.ofRequest p h c = true ∧ c.state.isReserved = true ∧ c.resource ∈ [x] then s.granted c else c),
      ?_, fun c => ?_⟩
    · rw [List.foldl_cons, hg, State.grantItem_claims s p h x (hx x List.mem_cons_self), State.grantedClaims, List.map_map]
      rfl
    · by_cases h1 : Claim.ofRequest p h c = true ∧ c.state.isReserved = true ∧ c.resource ∈ [x]
      · have h2 : Claim.ofRequest p h (s.granted c) = false := by simp [Claim.ofRequest, State.granted, ClaimState.handle]
        have h3 := hc (s.granted c)
        rw [if_neg (by simp [h2])] at h3
        rw [if_pos ⟨h1.1, h1.2.1, by simpa using .inl (List.mem_singleton.mp h1.2.2)⟩]
        simp only [h1, and_self, if_true, h3]
        exact ⟨_, _, rfl⟩
      · simp only [if_neg h1]
        have hiff : (Claim.ofRequest p h c = true ∧ c.state.isReserved = true ∧ c.resource ∈ x :: xs) ↔
            (Claim.ofRequest p h c = true ∧ c.state.isReserved = true ∧ c.resource ∈ xs) := by
          rw [List.mem_singleton] at h1
          rw [List.mem_cons]
          tauto
        simp only [hiff]
        exact hc c

theorem State.slot_foldl_grantItem (q : Port) (k : Handle) :
    (xs.foldl (fun s x => s.grantItem p h x) s).slot q k = s.slot q k := by
  simp [State.slot, State.foldl_grantItem_slots]

variable {s p h}

/-- An ASSEMBLING request's claims are those of its items, and RESERVED (R23). -/
theorem State.Consistent.reservedItems (a : s.Consistent) {f : Filing} {pend : List ResNo}
    (hs : s.slot p h = .assembling f pend) {c : Claim} (hc : c ∈ s.claims) (ho : Claim.ofRequest p h c = true) :
    c.state.isReserved = true ∧ c.resource ∈ f.items.map fun i => i.resource := by
  have hb := a.backs hc ho
  rw [hs] at hb; exact hb

/-- What the grant of all items makes of the claims, slots and resources (R40, R91). -/
theorem State.Consistent.grantItems_retakes (a : s.Consistent) {f : Filing} {pend : List ResNo}
    (hs : s.slot p h = .assembling f pend) (hp : ∀ i ∈ f.items, i.resource ∉ pend) {v : Slot} (hv : v.isOpen = false) :
    ∃ g, s.Retakes (((f.items.map fun i => i.resource).foldl (fun s x => s.grantItem p h x) s).setSlot p h v) p h g v := by
  have named : ∀ c ∈ s.claims, Claim.ofRequest p h c = true → ∃ i ∈ f.items, i.resource = c.resource := fun c hc ho =>
    List.mem_map.mp (a.reservedItems hs hc ho).2
  obtain ⟨g, hg, hg'⟩ := State.foldl_grantItem_claims s p h (f.items.map fun i => i.resource) fun x hx => by
    obtain ⟨i, hi, rfl⟩ := List.mem_map.mp hx
    obtain ⟨c, hc, -, hr⟩ := a.items p h i (by rw [hs]; exact hi)
    rw [← hr]; exact a.defined c hc
  have hkind := State.foldl_grantItem_kindOf s p h (f.items.map fun i => i.resource)
  have held : ∀ c ∈ s.claims, Claim.ofRequest p h c = true → c.HeldAs (g c) := fun c hc ho => by
    have := hg' c
    rwa [if_pos ⟨ho, a.reservedItems hs hc ho⟩] at this
  have other : ∀ c, Claim.ofRequest p h c ≠ true → g c = c := fun c ho => by
    have := hg' c
    rwa [if_neg fun h => ho h.1] at this
  have assigned : ∀ c ∈ s.claims, (g c).resource = c.resource ∧ (g c).state.isAssigned = c.state.isAssigned := by
    intro c hc
    by_cases ho : Claim.ofRequest p h c = true
    · obtain ⟨gr, ph, e⟩ := held c hc ho
      rw [e]
      exact ⟨rfl, (ClaimState.isAssigned_of_isReserved (a.reservedItems hs hc ho).1).symm⟩
    · rw [other c ho]; exact ⟨rfl, rfl⟩
  refine ⟨g, hg, fun c hc ho => ?_, other, fun q k => ?_, ?_, fun x hx => ?_, fun c hc ho k' hk' => ?_,
    fun c hc ho _ _ _ => ?_, fun c hc ho k hk => ?_, fun i hi => ?_, fun f' pend' e => ?_⟩
  · obtain ⟨gr, ph, e⟩ := held c hc ho
    rw [e]; exact ⟨rfl, rfl, rfl⟩
  · rw [State.slot_setSlot, State.slot_foldl_grantItem]
  · exact (State.TableEvent.foldl _ (fun s x => State.grantItem_tableEvent s p h x) _ s).defined
  · rw [State.kindOf_setSlot, hkind, if_neg]
    intro hm
    obtain ⟨i, hi, rfl⟩ := List.mem_map.mp hm
    obtain ⟨c, hc, ho, hr⟩ := a.items p h i (by rw [hs]; exact hi)
    exact hx c hc ho hr
  · obtain ⟨i, hi, hr⟩ := named c hc ho
    rw [State.kindOf_setSlot, hkind, if_pos (a.reservedItems hs hc ho).2] at hk'
    obtain ⟨k, hk, rfl⟩ := Option.map_eq_some_iff.mp hk'
    refine ⟨k, hk, k.granted_lineDef, k.granted_isShareable, ?_⟩
    rw [State.assigned_setSlot, State.assigned_of_map hg assigned]
    have hag := a.agrees _ k hk (by simp)
    cases k with
    | token sh st =>
      cases st with
      | vacant | faulted => exact List.map_eq_nil_iff.mpr hag
      | occupied => exact fun e => hag (List.map_eq_nil_iff.mp e)
    | line d st lu =>
      rw [← hr] at hk ⊢
      obtain rfl := (a.complete p h f pend hs i hi (hp i hi) d st lu hk).resolve_right (by simp)
      obtain ⟨b, hb, hob, -, has, hm, hap⟩ := a.engaged hs hi hk (by simp)
      obtain ⟨gr, ph, e⟩ := held b hb hob
      exact ⟨g b, by rw [has]; rfl, by rw [e]; exact ⟨rfl, hm, hap⟩⟩
  · exact State.mem_assigned.mpr ⟨hc, rfl, ClaimState.isAssigned_of_isReserved (a.reservedItems hs hc ho).1⟩
  · obtain ⟨gr, ph, e⟩ := held c hc ho
    rw [e] at hk; cases hk
  · rw [Slot.items_of_closed hv] at hi; cases hi
  · rw [e] at hv; cases hv

/-- The grant of a request all of whose items are complete (R40). -/
theorem State.Consistent.grant (a : s.Consistent) (imm : Option (Port × Handle)) {f : Filing} {pend : List ResNo}
    (hs : s.slot p h = .assembling f pend) (hp : ∀ i ∈ f.items, i.resource ∉ pend) :
    (State.grant imm s p h).Consistent := by
  have granted : ∀ v : Slot, v.isOpen = false →
      (((f.items.map fun i => i.resource).foldl (fun s x => s.grantItem p h x) s).setSlot p h v).Consistent := by
    intro v hv
    obtain ⟨g, r⟩ := a.grantItems_retakes hs hp hv
    exact a.retakes r
  unfold State.grant
  rw [hs]
  dsimp only
  split
  · exact granted .free rfl
  · exact (granted (.done f.incarnation .granted) rfl).congr (State.notify_claims _ p _)
      (fun q k => by simp [State.slot_notify]) (State.notify_resources _ p _)
end

/-! ### Reservation -/

/-- What the beginning of an item's handover for port `p` makes of a kind part (R38, R84, R85). -/
inductive Kind.Begun (p : Port) : Kind → Kind → Prop where
  | token (sh : Bool) (st : TokenState) : Kind.Begun p (.token sh st) (.token sh .occupied)
  | guard (d : LineDef) (lu : PhaseRecord) : Kind.Begun p (.line d .cooling lu) (.line d .guard lu)
  | verify (d : LineDef) (lu lu' : PhaseRecord) : Kind.Begun p (.line d .vacant lu) (.line d .verify lu')
  | engage (d : LineDef) (lu : PhaseRecord) (ph : Phase) :
    Kind.Begun p (.line d .vacant lu) (.line d .engage { applied := some p, phase := ph })
  | stay (d : LineDef) (st : LineState) (lu : PhaseRecord) (h : st ≠ .vacant ∧ st ≠ .cooling) :
    Kind.Begun p (.line d st lu) (.line d st lu)

section
variable {p : Port} {k l m : Kind}

/-- A handover begun is not begun again. -/
theorem Kind.Begun.again (a : Kind.Begun p k l) (b : Kind.Begun p l m) : m = l := by
  cases a with
  | token => cases b; rfl
  | guard | verify | engage => cases b; rfl
  | stay d st lu h =>
    cases b with
    | stay => rfl
    | guard => exact absurd rfl h.2
    | verify | engage => exact absurd rfl h.1

theorem Kind.Begun.lineDef (a : Kind.Begun p k l) : l.lineDef = k.lineDef := by cases a <;> rfl

theorem Kind.Begun.isShareable (a : Kind.Begun p k l) : l.isShareable = k.isShareable := by cases a <;> rfl

theorem State.beginItem_begun {s : State} {x : ResNo} (hk : s.kindOf x = some k) :
    ∃ k', (s.beginItem p x).kindOf x = some k' ∧ Kind.Begun p k k' := by
  cases k with
  | token sh st =>
    have e : s.beginItem p x = s.setKind x (.token sh .occupied) := by simp [State.beginItem, hk]
    exact ⟨_, by rw [e]; exact State.kindOf_setKind s x _ _ hk, .token sh st⟩
  | line d st lu =>
    cases st with
    | cooling =>
      have e : s.beginItem p x = s.setLineState x .guard := by simp [State.beginItem, hk]
      exact ⟨_, by rw [e]; exact State.kindOf_setLineState s x _ d _ lu hk, .guard d lu⟩
    | vacant =>
      have e : s.beginItem p x = s.engageOrVerify x p := by simp [State.beginItem, hk]
      rw [e]
      rcases State.kindOf_engageOrVerify s x p d _ lu hk with hv | ⟨ph, hv⟩
      · exact ⟨_, hv, .verify d lu _⟩
      · exact ⟨_, hv, .engage d lu ph⟩
    | guard | verify | engage | held | faulted =>
      have e : s.beginItem p x = s := by simp [State.beginItem, hk]
      exact ⟨_, by rw [e]; exact hk, .stay d _ lu (by simp)⟩

theorem State.foldl_beginItem_begun {s : State} (xs : List ResNo) {y : ResNo} (hy : y ∈ xs) (hk : s.kindOf y = some k) :
    ∃ k', (xs.foldl (fun s x => s.beginItem p x) s).kindOf y = some k' ∧ Kind.Begun p k k' := by
  induction xs generalizing s k with
  | nil => cases hy
  | cons x xs ih =>
    by_cases e : x = y
    · subst e
      obtain ⟨l, hl, hb⟩ := State.beginItem_begun (p := p) hk
      by_cases hm : x ∈ xs
      · obtain ⟨m, hm', hb'⟩ := ih hm hl
        rw [hb.again hb'] at hm'
        exact ⟨l, hm', hb⟩
      · refine ⟨l, ?_, hb⟩
        have := (State.foldl_beginItem_lineOrder p xs (s.beginItem p x)).2.2.2 x hm
        rw [List.foldl_cons, State.kindOf, this]; exact hl
    · refine ih ((List.mem_cons.mp hy).resolve_left (Ne.symm e)) ?_
      rw [State.kindOf, (State.beginItem_lineOrder s x p).others y (Ne.symm e)]; exact hk
end

/-- What the clearness of a claim says of its resource (R33). -/
theorem State.clear_kind {s : State} {c : Claim} (h : s.clear c = true) :
    ∃ k, s.kindOf c.resource = some k ∧ (c.mode = .exclusive → s.assigned c.resource = [] ∧ k.takesExclusive = true) := by
  unfold State.clear at h
  simp only [Bool.and_eq_true] at h
  obtain ⟨⟨⟨-, h⟩, -⟩, -⟩ := h
  split at h
  · cases h
  · next k hk =>
    refine ⟨k, hk, fun hm => ?_⟩
    rw [hm] at h
    simp only [Bool.and_eq_true, List.isEmpty_iff] at h
    exact h.2

section
variable {s : State} {p : Port} {h : Handle}

/-- A WAITING request's clear claim on a LINE resource is EXCLUSIVE, and the resource takes it (R28, R33). -/
theorem State.Consistent.clear_line (a : s.Consistent) {c : Claim} (hc : c ∈ s.claims) (hcl : s.clear c = true)
    {d : LineDef} {st : LineState} {lu : PhaseRecord} (hk : s.kindOf c.resource = some (.line d st lu)) :
    c.mode = .exclusive ∧ s.assigned c.resource = [] ∧ (st = .vacant ∨ st = .cooling) := by
  have hm : c.mode = .exclusive := by
    cases hm : c.mode with
    | exclusive => rfl
    | shared => exact absurd (a.shared c hc hm _ hk) (by simp [Kind.isShareable])
  obtain ⟨k, hk', he⟩ := State.clear_kind hcl
  rw [hk] at hk'; cases hk'
  obtain ⟨h1, h2⟩ := he hm
  refine ⟨hm, h1, ?_⟩
  cases st with
  | vacant => exact .inl rfl
  | cooling => exact .inr rfl
  | guard | verify | engage | held | faulted => cases h2

theorem State.mem_reserve_items {f : Filing} {i : Item} (hi : i ∈ f.items)
    (hp : i.resource ∉ (f.items.map fun i => i.resource).filter s.isLineRes) (d : LineDef) (st : LineState)
    (lu : PhaseRecord) : s.kindOf i.resource ≠ some (.line d st lu) := by
  intro hk
  exact hp (List.mem_filter.mpr ⟨List.mem_map.mpr ⟨i, hi, rfl⟩, by simp [State.isLineRes, hk, Kind.isLine]⟩)

theorem Claim.reservedIn_own {c : Claim} (ho : Claim.ofRequest p h c = true) :
    c.reservedIn p h = { c with state := .reserved h } := if_pos ho

theorem Claim.reservedIn_other {c : Claim} (ho : Claim.ofRequest p h c ≠ true) : c.reservedIn p h = c := if_neg ho

/-- The state right after the reservation of a ready request, before any grant (R38). -/
def State.reserved (s : State) (p : Port) (h : Handle) (f : Filing) : State :=
  ((f.items.map fun i => i.resource).foldl (fun s x => s.beginItem p x)
    (s.setClaims (s.claims.map (Claim.reservedIn p h)))).setSlot p h
    (.assembling f ((f.items.map fun i => i.resource).filter s.isLineRes))

theorem State.reserve_waiting (imm : Option (Port × Handle)) {f : Filing} {t : Option Time}
    (hs : s.slot p h = .waiting f t) :
    State.reserve imm s p h =
      if ((f.items.map fun i => i.resource).filter s.isLineRes).isEmpty then State.grant imm (s.reserved p h f) p h
      else s.reserved p h f := by
  unfold State.reserve
  rw [hs]
  rfl

/-- The resource of a reserved claim agrees with it (R38, R84, R85). -/
theorem State.Consistent.reserved_agrees (a : s.Consistent) (hr : s.ready p h = true) (f : Filing) {c : Claim}
    (hc : c ∈ s.claims) (ho : Claim.ofRequest p h c = true) {k k' : Kind} (hk : s.kindOf c.resource = some k)
    (hb : Kind.Begun p k k') : k'.Agrees ((s.reserved p h f).assigned c.resource) := by
  have hclaims : (s.reserved p h f).claims = s.claims.map (Claim.reservedIn p h) :=
    (State.foldl_beginItem_lineOrder p _ _).1
  have hcl := s.ready_clear p h hr c hc ho
  have hmem : c.reservedIn p h ∈ (s.reserved p h f).assigned c.resource := by
    rw [State.mem_assigned, hclaims, Claim.reservedIn_own ho]
    exact ⟨List.mem_map.mpr ⟨c, hc, Claim.reservedIn_own ho⟩, rfl, rfl⟩
  have alone : ∀ d st lu, k = .line d st lu →
      (s.reserved p h f).assigned c.resource = [{ c with state := .reserved h }] := by
    rintro d st lu rfl
    obtain ⟨-, hnil, -⟩ := a.clear_line hc hcl hk
    rw [← Claim.reservedIn_own ho]
    have one : (s.reserved p h f).OneEach := by
      unfold State.OneEach
      rw [hclaims, List.map_map]
      exact (List.map_congr_left (g := Claim.key) fun c _ => Claim.reservedIn_key p h c) ▸ a.oneEach
    refine one.assigned_eq hmem fun b hb => ?_
    rw [State.mem_assigned, hclaims] at hb
    obtain ⟨hb, hbr, hba⟩ := hb
    obtain ⟨b, hbm, rfl⟩ := List.mem_map.mp hb
    by_cases hob : Claim.ofRequest p h b = true
    · rw [Claim.reservedIn_own hob] at hbr
      rw [a.oneEach.eq hbm hc ((Claim.ofRequest_iff.mp hob).1.trans (Claim.ofRequest_iff.mp ho).1.symm) hbr]
    · rw [Claim.reservedIn_other hob] at hbr hba
      have : b ∈ s.assigned c.resource := State.mem_assigned.mpr ⟨hbm, hbr, hba⟩
      rw [hnil] at this; cases this
  have excl : ∀ d st lu, k = .line d st lu → c.mode = .exclusive ∧ (st = .vacant ∨ st = .cooling) := by
    rintro d st lu rfl
    obtain ⟨hm, -, hst⟩ := a.clear_line hc hcl hk
    exact ⟨hm, hst⟩
  cases hb with
  | token sh st => exact List.ne_nil_of_mem hmem
  | guard d lu => exact ⟨_, alone d _ lu rfl, rfl, (excl d _ lu rfl).1⟩
  | verify d lu lu' => exact ⟨_, alone d _ lu rfl, rfl, (excl d _ lu rfl).1⟩
  | engage d lu ph =>
    exact ⟨_, alone d _ lu rfl, rfl, (excl d _ lu rfl).1, by rw [(Claim.ofRequest_iff.mp ho).1]⟩
  | stay d st lu hst =>
    exact ((excl d st lu rfl).2.elim hst.1 hst.2).elim

theorem State.Consistent.reserved_retakes (a : s.Consistent) (hr : s.ready p h = true) {f : Filing} {t : Option Time}
    (hs : s.slot p h = .waiting f t) :
    s.Retakes (s.reserved p h f) p h (Claim.reservedIn p h)
      (.assembling f ((f.items.map fun i => i.resource).filter s.isLineRes)) := by
  have named : ∀ c ∈ s.claims, Claim.ofRequest p h c = true → c.resource ∈ f.items.map fun i => i.resource := by
    intro c hc ho
    have hb := a.backs hc ho
    rw [hs] at hb; exact hb.2
  have items : ∀ i ∈ f.items, ∃ c ∈ s.claims, Claim.ofRequest p h c = true ∧ c.resource = i.resource := fun i hi =>
    a.items p h i (by rw [hs]; exact hi)
  have order := State.foldl_beginItem_lineOrder p (f.items.map fun i => i.resource)
    (s.setClaims (s.claims.map (Claim.reservedIn p h)))
  have table : (s.setClaims (s.claims.map (Claim.reservedIn p h))).TableEvent _ :=
    State.TableEvent.foldl _ (fun s x => State.beginItem_tableEvent s p x) (f.items.map fun i => i.resource) _
  have begun : ∀ c ∈ s.claims, Claim.ofRequest p h c = true →
      ∃ k k', s.kindOf c.resource = some k ∧ (s.reserved p h f).kindOf c.resource = some k' ∧ Kind.Begun p k k' := by
    intro c hc ho
    obtain ⟨r, hr⟩ := Option.isSome_iff_exists.mp (a.defined c hc)
    have hk : s.kindOf c.resource = some r.kind := by simp [State.kindOf, hr]
    obtain ⟨k', hk', hb⟩ := State.foldl_beginItem_begun (p := p)
      (s := s.setClaims (s.claims.map (Claim.reservedIn p h))) _ (named c hc ho) hk
    exact ⟨_, k', hk, hk', hb⟩
  refine ⟨order.1, fun c _ ho => ?_, fun c ho => Claim.reservedIn_other ho, fun q k => ?_, table.defined, fun x hx => ?_,
    fun c hc ho k' hk' => ?_, fun c hc ho d lu hk => ?_, fun c hc ho k hk => ?_, fun i hi => ?_,
    fun f' pend e i hi hp d st lu hk' => ?_⟩
  · rw [Claim.reservedIn_own ho]; exact ⟨rfl, rfl, rfl⟩
  · rw [State.reserved, State.slot_setSlot]
    simp [State.slot, State.foldl_beginItem_slots]
  · have hm : x ∉ f.items.map fun i => i.resource := by
      intro hm
      obtain ⟨i, hi, rfl⟩ := List.mem_map.mp hm
      obtain ⟨c, hc, ho, hr⟩ := items i hi
      exact hx c hc ho hr
    exact congrArg (Option.map _) (order.2.2.2 x hm)
  · obtain ⟨k, l, hk, hl, hb⟩ := begun c hc ho
    rw [hl] at hk'; cases hk'
    exact ⟨k, hk, hb.lineDef, hb.isShareable, a.reserved_agrees hr f hc ho hk hb⟩
  · obtain ⟨-, -, e | e⟩ := a.clear_line hc (s.ready_clear p h hr c hc ho) hk <;> cases e
  · rw [Claim.reservedIn_own ho] at hk ⊢
    exact ⟨(Option.some.inj hk).symm, rfl, named c hc ho⟩
  · obtain ⟨c, hc, ho, hr⟩ := items i hi
    refine ⟨c, hc, ho, ?_, hr⟩
    rw [Claim.reservedIn_own ho, Claim.ofRequest_iff]
    exact ⟨(Claim.ofRequest_iff.mp ho).1, rfl⟩
  · cases e
    obtain ⟨c, hc, ho, hr⟩ := items i hi
    obtain ⟨k, l, hk, hl, hb⟩ := begun c hc ho
    rw [hr] at hk hl
    rw [hl] at hk'; cases hk'
    have hd := hb.lineDef
    cases k with
    | token => cases hd
    | line d' st' lu' => exact State.mem_reserve_items hi hp d' st' lu' hk

/-- The reservation of a ready request, with its grant where every item is complete (R38, R40). -/
theorem State.Consistent.reserve (a : s.Consistent) (imm : Option (Port × Handle)) (hr : s.ready p h = true) :
    (State.reserve imm s p h).Consistent := by
  have hw := s.ready_waiting p h hr
  cases hs : s.slot p h with
  | waiting f t =>
    have r := a.reserved_retakes hr hs
    rw [State.reserve_waiting imm hs]
    split
    · next he =>
      refine (a.retakes r).grant imm (by rw [r.slot, if_pos ⟨rfl, rfl⟩]) fun i _ => ?_
      rw [List.isEmpty_iff.mp he]
      exact List.not_mem_nil
    · exact a.retakes r
  | free | assembling | done => rw [hs] at hw; cases hw

end

end Sys2Proof.Machine
end

section
/-! ## Faults, passages, filing and the whole of an event -/

namespace Sys2Proof.Machine

section
variable {s t u : State} {x : ResNo}

/-! ### Faults -/

theorem State.faultResource_kindOf (s : State) (x : ResNo) (reason : FaultReason) {k' : Kind}
    (h : (s.faultResource x reason).kindOf x = some k') :
    ∃ k, s.kindOf x = some k ∧ k'.isShareable = k.isShareable ∧ k'.isFaulted = true := by
  unfold State.faultResource at h
  split at h
  · next d st lu hk =>
    rw [State.kindOf_setLineState (s.driveIdle x) x _ d st _ (State.kindOf_order s x _ d st lu hk)] at h
    cases h; exact ⟨_, hk, rfl, rfl⟩
  · next hk =>
    rw [State.kindOf_setKind s x _ _ hk] at h
    cases h; exact ⟨_, hk, rfl, rfl⟩
  · next hk => rw [hk] at h; cases h

/-- A resource becomes FAULTED while claims still stand on it (R70, R89, R92, R93). -/
theorem State.Consistent.fault (a : s.Consistent) (x : ResNo) (reason : FaultReason) :
    (s.faultResource x reason).ConsistentBut (some x) := by
  have o := State.faultResource_lineOrder s x reason
  have hslot : ∀ p h, (s.faultResource x reason).slot p h = s.slot p h := fun p h => by simp [State.slot, o.slots]
  have other : ∀ y, y ≠ x → (s.faultResource x reason).kindOf y = s.kindOf y := fun y e => by
    simp [State.kindOf, o.others y e]
  constructor
  · unfold State.OneEach; rw [o.claims]; exact a.oneEach
  · simpa [o.claims, o.isSome] using a.defined
  · simpa only [o.claims, hslot] using a.backed
  · simpa only [o.claims, hslot] using a.items
  · intro c hc hm k' hk'
    rw [o.claims] at hc
    by_cases e : c.resource = x
    · rw [e] at hk'
      obtain ⟨k, hk, hsh, -⟩ := State.faultResource_kindOf s x reason hk'
      rw [hsh]; exact a.shared c hc hm k (by rw [e]; exact hk)
    · rw [other _ e] at hk'; exact a.shared c hc hm k' hk'
  · intro y k' hk' hw
    rw [other y fun e => hw (by rw [e])] at hk'
    simpa [State.assigned, o.claims] using a.agrees y k' hk' (by simp)
  · intro y k' hy hk'
    obtain rfl := Option.some.inj hy
    obtain ⟨-, -, -, hf⟩ := State.faultResource_kindOf s x reason hk'
    exact hf
  · intro p h f pend hs i hi hp d st lu hk'
    by_cases e : i.resource = x
    · exact .inr (by rw [e])
    · rw [hslot] at hs
      rw [other _ e] at hk'
      exact .inl ((a.complete p h f pend hs i hi hp d st lu hk').resolve_right (by simp))

/-- Once no claim stands on the FAULTED resource, all agrees again (R7). -/
theorem State.ConsistentBut.recover (a : s.ConsistentBut (some x)) (hx : s.assigned x = []) : s.Consistent := by
  refine ⟨a.oneEach, a.defined, a.backed, a.items, a.shared, fun y k hk _ => ?_, nofun, ?_⟩
  · by_cases e : x = y
    · subst e
      rw [hx]
      exact Kind.agrees_of_isFaulted (a.faulted x k rfl hk)
    · exact a.agrees y k hk fun h => e (Option.some.inj h)
  · intro p h f pend hs i hi hp d st lu hk
    refine .inl ((a.complete p h f pend hs i hi hp d st lu hk).resolve_right fun hw => ?_)
    obtain ⟨c, hc, ho, hr⟩ := a.items p h i (by rw [hs]; exact hi)
    have hb := a.backs hc ho
    rw [hs] at hb
    have hm : c ∈ s.assigned x :=
      State.mem_assigned.mpr ⟨hc, hr.trans (Option.some.inj hw).symm, ClaimState.isAssigned_of_isReserved hb.1⟩
    rw [hx] at hm; cases hm

/-- The failure of every request with a claim assigned on a resource leaves it none (R48). -/
theorem State.ConsistentBut.failAll_unassigned {w : Option ResNo} (a : s.ConsistentBut w) (rs : List (Port × Handle))
    (y : ResNo) (reason : FailReason) (h : ∀ c ∈ s.assigned x, ∃ k, c.state.handle = some k ∧ (c.owner, k) ∈ rs) :
    (s.failAll rs y reason).assigned x = [] := by
  rw [List.eq_nil_iff_forall_not_mem]
  intro c hc
  obtain ⟨hm, hr, ha⟩ := State.mem_assigned.mp hc
  have hs : c ∈ s.claims := (State.failAll_claims_sublist y reason rs s).subset hm
  obtain ⟨k, hk, hrs⟩ := h c (State.mem_assigned.mpr ⟨hs, hr, ha⟩)
  have hn := State.failAll_noRequest y reason rs s c.owner k hrs (a.backed c hs k hk).isOpen c hm
  rw [Claim.ofRequest_iff.mpr ⟨rfl, hk⟩] at hn; cases hn

theorem ClaimState.isReserved_iff {st : ClaimState} : st.isReserved = true ↔ ∃ k, st = .reserved k := by
  cases st with
  | reserved k => exact ⟨fun _ => ⟨k, rfl⟩, fun _ => rfl⟩
  | waiting | held => exact ⟨nofun, nofun⟩

theorem State.requestsWith_reserved {c : Claim} (hc : c ∈ s.assigned x) (hr : c.state.isReserved = true)
    {sel : Claim → Bool} (hs : sel c = true) : ∃ k, c.state.handle = some k ∧ (c.owner, k) ∈ s.requestsWith sel := by
  obtain ⟨k, hk⟩ := ClaimState.isReserved_iff.mp hr
  exact ⟨k, by rw [hk]; rfl, State.mem_requestsWith.mpr ⟨c, (State.mem_assigned.mp hc).1, hs, rfl, by rw [hk]; rfl⟩⟩

theorem State.assigned_faultResource (s : State) (x y : ResNo) (reason : FaultReason) :
    (s.faultResource x reason).assigned y = s.assigned y := by
  simp [State.assigned, (State.faultResource_lineOrder s x reason).claims]

/-- A confirmation fault of a reserved resource (R89, R92, R93). -/
theorem State.Consistent.confirmationFault (a : s.Consistent) (reason : FaultReason) {st : LineState}
    (h : s.lineState x = some st) (hst : st = .verify ∨ st = .engage) :
    ((s.faultResource x reason).failAll (s.requestsWith (Claim.reservedOn x)) x .fault).Consistent := by
  refine ((a.fault x reason).failAll _ x _).recover ((a.fault x reason).failAll_unassigned _ x _ fun c hc => ?_)
  rw [State.assigned_faultResource] at hc
  obtain ⟨d, lu, hk⟩ : ∃ d lu, s.kindOf x = some (.line d st lu) := by
    unfold State.lineState at h
    split at h <;> cases h
    exact ⟨_, _, ‹_›⟩
  have hr : c.state.isReserved = true := by
    rcases hst with rfl | rfl <;>
    · obtain ⟨b, hb, hr, -⟩ := a.agrees x _ hk (by simp)
      rw [hb, List.mem_singleton] at hc
      rw [hc]; exact hr
  exact State.requestsWith_reserved hc hr (by simp [Claim.reservedOn, (State.mem_assigned.mp hc).2.1, hr])

/-- DISABLE takes every claim from the resource (R70). -/
theorem State.Consistent.disable (a : s.Consistent) (x : ResNo) :
    (((s.faultResource x .disabled).revoke x .disabled fun _ => true).failAll (s.requestsWith (Claim.requestOn x)) x
      .disabled).Consistent := by
  have r := (a.fault x .disabled).revoke x .disabled fun _ => true
  refine (r.failAll _ x _).recover (r.failAll_unassigned _ x _ fun c hc => ?_)
  obtain ⟨hm, hx, ha⟩ := State.mem_assigned.mp hc
  rw [State.revoke_claims, (State.faultResource_lineOrder s x _).claims, List.mem_filter] at hm
  have hr : c.state.isReserved = true := by
    have := hm.2
    revert this ha
    cases c.state <;> simp [hx, ClaimState.isHeld, ClaimState.isReserved, ClaimState.isAssigned]
  refine State.requestsWith_reserved (State.mem_assigned.mpr ⟨hm.1, hx, ha⟩) hr ?_
  revert hr
  cases hcs : c.state <;> simp [Claim.requestOn, hx, hcs, ClaimState.handle, ClaimState.isReserved]

/-- A confirmation lost under a holding (R66, R93). -/
theorem State.Consistent.confirmLost (a : s.Consistent) (h : s.lineState x = some .held) :
    ((s.faultResource x .confirmLost).revoke x .confirmLost fun _ => true).Consistent := by
  refine ((a.fault x .confirmLost).revoke x _ _).recover ?_
  rw [List.eq_nil_iff_forall_not_mem]
  intro c hc
  obtain ⟨hm, hx, ha⟩ := State.mem_assigned.mp hc
  rw [State.revoke_claims, (State.faultResource_lineOrder s x _).claims, List.mem_filter] at hm
  obtain ⟨d, lu, hk⟩ : ∃ d lu, s.kindOf x = some (.line d .held lu) := by
    unfold State.lineState at h
    split at h <;> cases h
    exact ⟨_, _, ‹_›⟩
  obtain ⟨b, hb, hh, -⟩ := a.agrees x _ hk (by simp)
  have hcb : c ∈ s.assigned x := State.mem_assigned.mpr ⟨hm.1, hx, ha⟩
  rw [hb, List.mem_singleton] at hcb
  subst hcb
  simp [hx, hh] at hm

/-! ### Filing -/

/-- What the checks of R28 and R29 have found of the items that a CLAIM names. -/
structure State.Fileable (s : State) (p : Port) (h : Handle) (items : List Item) : Prop where
  defined : ∀ i ∈ items, (s.resource i.resource).isSome = true
  shareable : ∀ i ∈ items, i.mode = .shared → ∀ k, s.kindOf i.resource = some k → k.isShareable = true
  free : s.slot p h = .free
  distinct : (items.map fun i => i.resource).Nodup
  unclaimed : ∀ i ∈ items, ∀ c ∈ s.claims, c.owner = p → c.resource ≠ i.resource

/-- Steps 1 to 3 of the acceptance of a CLAIM (R30). -/
theorem State.Consistent.fileRequest (a : s.Consistent) {p : Port} {h : Handle} {items : List Item}
    (f : s.Fileable p h items) (limit : Word16) : (s.fileRequest p h items limit).Consistent := by
  have new : ∀ c ∈ (s.fileRequest p h items limit).claims, c ∈ s.claims ∨
      ∃ i ∈ items, c = { owner := p, resource := i.resource, mode := i.mode, state := .waiting h } := by
    intro c hc
    refine (List.mem_append.mp hc).imp id fun hc => ?_
    obtain ⟨i, hi, rfl⟩ := List.mem_map.mp hc
    exact ⟨i, hi, rfl⟩
  have hslot : ∀ q k, (s.fileRequest p h items limit).slot q k = if p = q ∧ h = k then
      .waiting { incarnation := s.incarnation p, items := items, waitLimit := limit } (s.waitTimer limit)
      else s.slot q k := fun q k => by rw [State.fileRequest, State.slot_setSlot]; rfl
  have unfiled : ∀ c ∈ s.claims, Claim.ofRequest p h c ≠ true := by
    intro c hc ho
    have hb := (a.backs hc ho).isOpen
    rw [f.free] at hb; cases hb
  have hass : ∀ x, (s.fileRequest p h items limit).assigned x = s.assigned x := by
    intro x
    show (s.claims ++ items.map _).filter _ = _
    rw [List.filter_append]
    refine (congrArg (_ ++ ·) (List.filter_eq_nil_iff.mpr fun c hc => ?_)).trans (List.append_nil _)
    obtain ⟨i, -, rfl⟩ := List.mem_map.mp hc
    simp [ClaimState.isAssigned]
  constructor
  · show ((s.claims ++ items.map _).map Claim.key).Nodup
    rw [List.map_append, List.nodup_append]
    refine ⟨a.oneEach, ?_, ?_⟩
    · rw [List.map_map]
      exact List.Nodup.of_map Prod.snd (by simpa [Function.comp_def, Claim.key] using f.distinct)
    · intro y hy z hz e
      subst e
      obtain ⟨c, hc, rfl⟩ := List.mem_map.mp hy
      rw [List.map_map] at hz
      obtain ⟨i, hi, e⟩ := List.mem_map.mp hz
      obtain ⟨e1, e2⟩ := Prod.mk.inj e
      exact f.unclaimed i hi c hc e1.symm e2.symm
  · intro c hc
    rcases new c hc with hc | ⟨i, hi, rfl⟩
    · exact a.defined c hc
    · exact f.defined i hi
  · intro c hc k hk
    rcases new c hc with hc | ⟨i, hi, rfl⟩
    · rw [hslot, if_neg fun e => unfiled c hc (Claim.ofRequest_iff.mpr ⟨e.1.symm, by rw [hk, e.2]⟩)]
      exact a.backed c hc k hk
    · cases hk
      rw [hslot, if_pos ⟨rfl, rfl⟩]
      exact ⟨rfl, List.mem_map.mpr ⟨i, hi, rfl⟩⟩
  · intro q k i hi
    rw [hslot] at hi
    split at hi
    · next e =>
      obtain ⟨rfl, rfl⟩ := e
      exact ⟨_, List.mem_append_right _ (List.mem_map.mpr ⟨i, hi, rfl⟩), by simp [Claim.ofRequest, ClaimState.handle], rfl⟩
    · obtain ⟨c, hc, ho, hr⟩ := a.items q k i hi
      exact ⟨c, List.mem_append_left _ hc, ho, hr⟩
  · intro c hc hm k hk
    rcases new c hc with hc | ⟨i, hi, rfl⟩
    · exact a.shared c hc hm k hk
    · exact f.shareable i hi hm k hk
  · intro x k hk hw
    rw [hass]; exact a.agrees x k hk hw
  · exact nofun
  · intro q k f' pend hs
    rw [hslot] at hs
    split at hs
    · cases hs
    · exact a.complete q k f' pend hs

/-! ### An item becomes complete -/

theorem State.Consistent.completeItem (a : s.Consistent) {p : Port} {h : Handle} {f : Filing} {pend : List ResNo}
    (hs : s.slot p h = .assembling f pend) (hx : s.lineState x = some .engage) :
    (s.setSlot p h (.assembling f (pend.erase x))).Consistent := by
  have hslot : ∀ q k, (s.setSlot p h (.assembling f (pend.erase x))).slot q k =
      if p = q ∧ h = k then .assembling f (pend.erase x) else s.slot q k := fun q k => by rw [State.slot_setSlot]
  constructor
  · exact a.oneEach
  · exact a.defined
  · intro c hc k hk
    have hb := a.backed c hc k hk
    rw [hslot]
    split
    · next e => rw [← e.1, ← e.2, hs] at hb; exact hb
    · exact hb
  · intro q k i hi
    rw [hslot] at hi
    split at hi
    · next e => rw [← e.1, ← e.2]; exact a.items p h i (by rw [hs]; exact hi)
    · exact a.items q k i hi
  · exact a.shared
  · exact a.agrees
  · exact a.faulted
  · intro q k f' pend' hsl i hi hp d st lu hk
    rw [hslot] at hsl
    split at hsl
    · cases hsl
      by_cases e : i.resource = x
      · rw [State.kindOf_setSlot, e] at hk
        rw [State.lineState, hk] at hx
        exact .inl (Option.some.inj hx)
      · exact a.complete p h f pend hs i hi (fun hm => hp ((List.mem_erase_of_ne e).mpr hm)) d st lu hk
    · exact a.complete q k f' pend' hsl i hi hp d st lu hk

/-! ### States without claims -/

theorem State.Consistent.of_noClaims (hc : s.claims = []) (hi : ∀ p h, (s.slot p h).items = [])
    (hk : ∀ x k, s.kindOf x = some k → k.Agrees []) : s.Consistent := by
  have none : ∀ c, c ∉ s.claims := fun c h => by rw [hc] at h; cases h
  refine ⟨?_, fun c h => absurd h (none c), fun c h => absurd h (none c), fun p h i h' => ?_, fun c h => absurd h (none c),
    fun x k h _ => ?_, nofun, fun p h f pend hs i h' => ?_⟩
  · unfold State.OneEach; rw [hc]; exact List.nodup_nil
  · rw [hi p h] at h'; cases h'
  · have : s.assigned x = [] := by simp [State.assigned, hc]
    rw [this]; exact hk x k h
  · have := hi p h
    rw [hs] at this
    rw [show f.items = [] from this] at h'; cases h'
end

end Sys2Proof.Machine
end

section
/-! ## What every event keeps -/

namespace Sys2Proof.Machine

/-- While the time stands, every resource passes as `State.KeepsLines` says, and the claims, slots and resources stay in
agreement. -/
structure State.KeepsLaws (s t : State) : Prop where
  lines : s.KeepsLines t
  consistent : s.Consistent → t.Consistent

section
variable {s t u : State}

/-- Nothing changes of the claims, slots and resources, and no report is made. -/
theorem State.KeepsLaws.same (hn : t.now = s.now) (hc : t.claims = s.claims) (hs : t.slots = s.slots)
    (hr : t.resources = s.resources) (hl : ∀ r ∈ t.lineReports, r ∈ s.lineReports) : s.KeepsLaws t :=
  ⟨.same hn hr hl, fun a => a.congr hc (fun p h => by simp [State.slot, hs]) hr⟩

theorem State.KeepsLaws.refl (s : State) : s.KeepsLaws s := ⟨.refl s, id⟩

theorem State.KeepsLaws.trans (a : s.KeepsLaws t) (b : t.KeepsLaws u) : s.KeepsLaws u :=
  ⟨a.lines.trans b.lines, fun h => b.consistent (a.consistent h)⟩

theorem State.KeepsLaws.foldl {α : Type} (f : State → α → State) (hf : ∀ (s : State) (a : α), s.KeepsLaws (f s a))
    (xs : List α) (s : State) : s.KeepsLaws (xs.foldl f s) := by
  induction xs generalizing s with
  | nil => exact .refl s
  | cons a xs ih => exact (hf s a).trans (ih (f s a))

theorem State.SameClaimTable.keepsLaws (a : s.SameClaimTable t) (hn : t.now = s.now) : s.KeepsLaws t :=
  .same hn a.claims a.slots a.resources fun r hr => by rwa [a.lineReports] at hr
end

section
variable (s : State) (p : Port) (h : Handle) (x : ResNo) (sel : Claim → Bool)

/-! ### The shared operations -/

theorem State.setSession_keepsLaws (v : Session) : s.KeepsLaws (s.setSession p v) := .same rfl rfl rfl rfl fun _ h => h

theorem State.setPort_keepsLaws (v : PortInterface) : s.KeepsLaws (s.setPort p v) := .same rfl rfl rfl rfl fun _ h => h

theorem State.setQueue_keepsLaws (v : NoticeQueue) : s.KeepsLaws (s.setQueue p v) := .same rfl rfl rfl rfl fun _ h => h

theorem State.endOfEvent_keepsLaws : s.KeepsLaws s.endOfEvent :=
  .same (by simp) (by simp) (by simp) (by simp) fun r hr => by simpa using hr

theorem State.notify_keepsLaws (n : Notice) : s.KeepsLaws (s.notify p n) := ⟨s.notify_keepsLines p n, fun a => a.notify p n⟩

theorem State.notifyMode_keepsLaws (m : DeviceMode) : s.KeepsLaws (s.notifyMode m) :=
  .foldl _ (fun s p => s.notify_keepsLaws p _) _ s

theorem State.evaluateWith_keepsLaws (imm : Option (Port × Handle)) (xs : List ResNo) :
    s.KeepsLaws (s.evaluateWith imm xs) :=
  State.evaluateFor_keeps s.KeepsLaws imm
    (fun t p h hr a => a.trans ⟨t.reserve_keepsLines imm p h, fun c => c.reserve imm hr⟩) _ _ s (.refl s)

theorem State.evaluate_keepsLaws (xs : List ResNo) : s.KeepsLaws (s.evaluate xs) := s.evaluateWith_keepsLaws none xs

theorem State.revoke_keepsLaws (reason : RevokeReason) : s.KeepsLaws (s.revoke x reason sel) :=
  ⟨s.revoke_keepsLines x reason sel, fun a => a.revoke x reason sel⟩

theorem State.endRequest_keepsLaws (o : SlotOutcome) (n : Notice) : s.KeepsLaws (s.endRequest p h o n) :=
  ⟨s.endRequest_keepsLines p h o n, fun a => a.endRequest p h o n⟩

theorem State.failAll_keepsLaws (rs : List (Port × Handle)) (reason : FailReason) : s.KeepsLaws (s.failAll rs x reason) :=
  .foldl _ (fun s (r : Port × Handle) => s.endRequest_keepsLaws r.1 r.2 _ _) rs s

theorem State.withdrawAll_keepsLaws : s.KeepsLaws s.withdrawAll := by
  refine .foldl _ (fun s p => .foldl _ (fun s h => ?_) _ s) _ s
  split
  · exact s.endRequest_keepsLaws p h _ _
  · exact .refl s

theorem State.beginYield_keepsLaws : s.KeepsLaws (s.beginYield x sel) :=
  ⟨s.beginYield_keepsLines x sel, fun a => a.beginYield x sel⟩

theorem State.setOvertime_keepsLaws : s.KeepsLaws (s.setOvertime p x) :=
  ⟨s.setClaims_keepsLines _, fun a => a.setOvertime p x⟩

theorem State.cancelRequest_keepsLaws : s.KeepsLaws (s.cancelRequest p h) :=
  .trans ⟨(s.removeClaims_keepsLines _).trans (State.setSlot_keepsLines ..),
    fun a => a.removes (s.closeRequest_removes p h .free rfl)⟩ (State.evaluate_keepsLaws _ _)

theorem State.release_keepsLaws : s.KeepsLaws (s.removeAndEvaluate (Claim.isHolding p x)) := by
  refine .trans ⟨s.removeClaims_keepsLines _, fun a => a.removes (s.removeClaims_held_removes _ fun c _ hs => ?_)⟩
    (State.evaluate_keepsLaws _ _)
  simp only [Claim.isHolding, Bool.and_eq_true] at hs
  exact hs.2

/-! ### Sessions -/

theorem State.endSession_keepsLaws (st : SessionState) : s.KeepsLaws (s.endSession p st) := by
  have reclaim : ∀ t : State, t.KeepsLaws ((t.removeClaims (Claim.ofPort p)).freeSlots p) := fun t =>
    ⟨(t.removeClaims_keepsLines _).trans (.same rfl rfl fun _ h => h), fun a => a.removes (t.reclaim_removes p)⟩
  have closed : s.KeepsLaws (s.setSessionState p st) := s.setSession_keepsLaws p _
  exact ((((closed.trans (reclaim _)).trans (State.evaluate_keepsLaws _ _)).trans (State.setQueue_keepsLaws _ p _)).trans
    (State.setPort_keepsLaws _ p _)).trans (State.endOfEvent_keepsLaws _)

theorem State.severPort_keepsLaws (reason : SeverReason) : s.KeepsLaws (s.severPort p reason) := by
  unfold State.severPort
  split
  · exact s.endSession_keepsLaws p _
  · exact .refl s

theorem State.limitsEvent_keepsLaws (a b c : Nat) : s.KeepsLaws (s.limitsEvent a b c) := by
  unfold State.limitsEvent
  refine .trans (t := { s with threshold := a, recovery := b, filterTime := c }) (.same rfl rfl rfl rfl fun _ h => h)
    (.foldl _ (fun s k => ?_) _ _)
  unfold State.applyLimits
  split
  · split
    · exact s.severPort_keepsLaws k _
    · split
      · exact .same rfl rfl rfl rfl fun _ h => h
      · exact .refl s
  · exact .refl s

theorem State.seeFrame_keepsLaws (inc : Byte) : s.KeepsLaws (s.seeFrame p inc) :=
  have a := s.seeFrame_seen p inc
  a.table.keepsLaws a.inputs.now

/-! ### Modes -/

theorem State.changeMode_keepsLaws (m : DeviceMode) : s.KeepsLaws (s.changeMode m) := .same rfl rfl rfl rfl fun _ h => h

theorem State.drainToSetup_keepsLaws : s.KeepsLaws s.drainToSetup :=
  .trans (t := { s with mode := .setup }) (.same rfl rfl rfl rfl fun _ h => h) (State.notifyMode_keepsLaws _ _)

theorem State.setModeEvent_keepsLaws (m : DeviceMode) : s.KeepsLaws (s.setModeEvent m) := by
  have service : s.KeepsLaws s.enterService :=
    ((s.changeMode_keepsLaws .service).trans (State.notifyMode_keepsLaws _ _)).trans (State.evaluate_keepsLaws _ _)
  have quiesce : s.KeepsLaws s.enterQuiesce := by
    have drain := (((s.changeMode_keepsLaws .quiesce).trans (State.notifyMode_keepsLaws _ .quiesce)).trans
      (State.withdrawAll_keepsLaws _)).trans (State.evaluate_keepsLaws _ (s.losers fun c => c.state.isWaiting))
    unfold State.enterQuiesce
    dsimp only
    split
    · exact drain.trans (State.drainToSetup_keepsLaws _)
    · exact drain
  unfold State.setModeEvent
  split
  · exact service
  · exact service
  · exact quiesce
  · exact .refl s

/-! ### RESTART -/

/-- The kind part of a resource as RESTART sets it (R19, R100). -/
def Kind.restarted (now : Time) : Kind → Kind
  | .token sh _ => .token sh .vacant
  | .line d _ _ => .line d .cooling { applied := none, phase := .guard (now + d.guard.toNat) }

theorem State.resource_restartResource (y : ResNo) : (s.restartResource x).resource y =
    if x = y then (s.resource x).map fun r => { r with kind := r.kind.restarted s.now } else s.resource y := by
  unfold State.restartResource
  cases hr : s.resource x with
  | none =>
    have hk : s.kindOf x = none := by simp [State.kindOf, hr]
    rw [hk]
    by_cases e : x = y
    · subst e; simp [hr]
    · simp [e]
  | some r =>
    have hk : s.kindOf x = some r.kind := by simp [State.kindOf, hr]
    rw [hk]
    obtain ⟨l, hl, yg, g, k⟩ := r
    cases k with
    | token sh st => simp [State.setKind, hr, Kind.restarted]
    | line d st lu => simp [State.resource_cool, hr, Kind.restarted]

theorem State.restartResource_keepsLines : s.KeepsLines (s.restartResource x) := by
  unfold State.restartResource
  split
  · next hk => exact s.setToken_keepsLines x _ _ _ hk
  · next hk => exact s.cool_keepsLines x hk
  · exact .refl s

theorem State.foldl_restartResource_resource (xs : List ResNo) (s : State) (y : ResNo) :
    (xs.foldl State.restartResource s).resource y =
      if y ∈ xs then (s.resource y).map fun r => { r with kind := r.kind.restarted s.now } else s.resource y := by
  have again : ∀ (k : Kind) (now : Time), (k.restarted now).restarted now = k.restarted now := by
    intro k now; cases k <;> rfl
  induction xs generalizing s with
  | nil => simp
  | cons x xs ih =>
    have hn : (s.restartResource x).now = s.now := (s.restartResource_keepsLines x).now
    rw [List.foldl_cons, ih, State.resource_restartResource, hn]
    by_cases e : x = y
    · subst e
      by_cases hm : x ∈ xs <;> simp [hm, Function.comp_def, again]
    · simp [e, Ne.symm e]

/-- The state of RESTART once the sessions have ended and the claims and slots are cleared (R53). -/
def State.cleared : State := { s with claims := [], slots := Vector.replicate 6 (Vector.replicate 8 .free) }

@[simp] theorem State.cleared_slot (k : Handle) : s.cleared.slot p k = .free := by
  simp [State.cleared, State.slot]

theorem State.restartEvent_eq : s.restartEvent =
    ((List.finRange 64).foldl State.restartResource
      ((List.finRange 6).foldl (fun t p => s.restartPort t p) s).cleared).changeMode .setup := rfl

theorem State.restartPort_keepsLaws (b : State) : s.KeepsLaws (State.restartPort b s p) := by
  unfold State.restartPort
  split
  · exact .same rfl rfl rfl rfl fun _ h => h
  · exact .refl s

theorem State.cleared_restart_keepsLaws : s.KeepsLaws ((List.finRange 64).foldl State.restartResource s.cleared) := by
  have table : s.cleared.TableEvent ((List.finRange 64).foldl State.restartResource s.cleared) :=
    State.TableEvent.foldl _ (fun t x => State.restartResource_tableEvent t x) _ _
  refine ⟨.trans (t := s.cleared) (.same rfl rfl fun _ h => h) (.foldl _ (fun t x => t.restartResource_keepsLines x) _ _),
    fun _ => .of_noClaims ?_ (fun p h => ?_) fun x k hk => ?_⟩
  · exact List.map_eq_nil_iff.mp (List.sublist_nil.mp table.claims)
  · rw [(table.slots p h).resolve_right (by simp [Slot.isOpen])]; simp [Slot.items]
  · simp only [State.kindOf, State.foldl_restartResource_resource, List.mem_finRange, if_true, Option.map_map,
      Option.map_eq_some_iff, Function.comp_apply] at hk
    obtain ⟨r, -, rfl⟩ := hk
    cases r.kind <;> rfl

theorem State.restartEvent_keepsLaws : s.KeepsLaws s.restartEvent := by
  rw [State.restartEvent_eq]
  exact ((State.KeepsLaws.foldl _ (fun t p => t.restartPort_keepsLaws p s) _ s).trans
    (State.cleared_restart_keepsLaws _)).trans (State.changeMode_keepsLaws _ _)

/-! ### The supervisor's requests of the Claim Table -/

theorem State.forceReleaseEvent_keepsLaws : s.KeepsLaws (s.forceReleaseEvent x) :=
  ((s.revoke_keepsLaws x _ _).trans (State.failAll_keepsLaws _ x _ _)).trans (State.evaluate_keepsLaws _ _)

theorem State.disableEvent_keepsLaws : s.KeepsLaws (s.disableEvent x) :=
  .trans ⟨((s.faultResource_keepsLines x _).trans (State.revoke_keepsLines _ x _ _)).trans
    (State.failAll_keepsLines _ _ x _), fun a => a.disable x⟩ (State.evaluate_keepsLaws _ _)

theorem State.clearFaultEvent_keepsLaws : s.KeepsLaws (s.clearFaultEvent x) := by
  unfold State.clearFaultEvent
  split
  · next d r lu hk =>
    refine .trans ⟨s.cool_keepsLines x hk, fun a => a.passage (State.cool_lineOrder s x) fun k k' h h' => ?_⟩
      (State.evaluate_keepsLaws _ _)
    rw [hk] at h; cases h
    rw [State.kindOf_cool s x d _ lu hk] at h'; cases h'
    exact .line (by simp) id
  · next sh hk =>
    refine .trans ⟨s.setToken_keepsLines x _ _ .vacant hk,
      fun a => a.passage (State.setToken_lineOrder s x _ _ _ hk) fun k k' h h' => ?_⟩ (State.evaluate_keepsLaws _ _)
    rw [hk] at h; cases h
    rw [State.kindOf_setKind s x _ _ hk] at h'; cases h'
    exact ⟨rfl, id, nofun⟩
  · exact .refl s

theorem State.accept_keepsLaws {items : List Item} (hf : s.Fileable p h items) (limit : Word16) :
    s.KeepsLaws (s.accept p h items limit) :=
  have filed : s.KeepsLaws (s.fileRequest p h items limit) := ⟨.same rfl rfl fun _ h => h, fun a => a.fileRequest hf limit⟩
  (filed.trans (.foldl _ (fun s x => s.beginYield_keepsLaws x _) _ _)).trans (State.evaluateWith_keepsLaws _ _ _)

/-! ### The Line Unit's reports and phases -/

theorem State.dropReport_keepsLaws : s.KeepsLaws (s.dropReport x) :=
  .same rfl rfl rfl rfl fun _ hr => List.mem_of_mem_eraseP hr

theorem State.confirmationFault_keepsLaws (reason : FaultReason) {st : LineState} (hs : s.lineState x = some st)
    (hst : st = .verify ∨ st = .engage) : s.KeepsLaws (s.confirmationFault x reason) :=
  .trans ⟨(s.faultResource_keepsLines x _).trans (State.failAll_keepsLines _ _ x _),
    fun a => a.confirmationFault reason hs hst⟩ (State.evaluate_keepsLaws _ _)

theorem State.lineState_eq {s : State} {x : ResNo} {st : LineState} (hs : s.lineState x = some st) :
    ∃ d lu, s.kindOf x = some (.line d st lu) := by
  unfold State.lineState at hs
  split at hs <;> cases hs
  exact ⟨_, _, ‹_›⟩

theorem State.phaseReport_keepsLaws {ph : Phase} {k : LineReportKind}
    (hl : s.KeepsLines ((s.setPhase x ph).report x k)) : s.KeepsLaws ((s.setPhase x ph).report x k) := by
  refine ⟨hl, fun a => a.passage (s.phaseReport_lineOrder x ph k) fun k1 k2 h1 h2 => ?_⟩
  rw [State.kindOf_report] at h2
  cases k1 with
  | token sh st =>
    obtain ⟨r, hr, hrk⟩ := State.kindOf_eq_some h1
    have : (s.setPhase x ph).kindOf x = some (.token sh st) := by
      simp [State.kindOf, State.setPhase, State.mapPhase, hr, hrk]
    rw [this] at h2; cases h2
    exact ⟨rfl, id, nofun⟩
  | line d st lu =>
    rw [State.kindOf_setPhase s x ph h1] at h2; cases h2
    exact .phase ..

theorem State.meetLevel_keepsLaws (c : ConfNo) : s.KeepsLaws (State.meetLevel c s x) := by
  have hl := s.meetLevel_keepsLines x c
  rcases s.meetLevel_cases x c with e | ⟨d, st, lu, k, ph, b, -, -, e⟩
  · rw [e]; exact .refl s
  · rw [e] at hl ⊢; exact s.phaseReport_keepsLaws x hl

/-- The port whose claim is assigned on a reserved LINE resource owns the one claim there (R7, R85). -/
theorem State.Consistent.reservedPort {s : State} (a : s.Consistent) {x : ResNo} {k : Port} (hk : s.assignedPort x = some k)
    {d : LineDef} {st : LineState} {lu : PhaseRecord} (hl : s.kindOf x = some (.line d st lu))
    (hst : st = .guard ∨ st = .verify) :
    ∃ c, s.assigned x = [c] ∧ c.state.isReserved = true ∧ c.mode = .exclusive ∧ c.owner = k := by
  obtain ⟨c, hc, hr, hm⟩ : ∃ c, s.assigned x = [c] ∧ c.state.isReserved = true ∧ c.mode = .exclusive := by
    rcases hst with rfl | rfl <;> exact a.agrees x _ hl (by simp)
  refine ⟨c, hc, hr, hm, ?_⟩
  simpa [State.assignedPort, hc] using hk

theorem State.beginEngage_keepsLaws {k : Port} (hk : s.assignedPort x = some k) {d : LineDef} {lu : PhaseRecord}
    (hl : s.kindOf x = some (.line d .verify lu)) : s.KeepsLaws (s.beginEngage x k) := by
  refine ⟨s.beginEngage_keepsLines x k hl, fun a => a.passage (s.beginEngage_lineOrder x k) fun k1 k2 h1 h2 => ?_⟩
  rw [hl] at h1; cases h1
  obtain ⟨ph, hp⟩ := s.kindOf_beginEngage x k hl
  rw [hp] at h2; cases h2
  obtain ⟨c, hc, hr, hm, rfl⟩ := a.reservedPort hk hl (.inr rfl)
  exact .line (by simp) fun _ => ⟨c, hc, hr, hm, rfl⟩

theorem State.Consistent.engageOrVerify {s : State} (a : s.Consistent) {x : ResNo} {k : Port} (hk : s.assignedPort x = some k)
    {d : LineDef} {lu : PhaseRecord} (hl : s.kindOf x = some (.line d .guard lu)) : (s.engageOrVerify x k).Consistent := by
  refine a.passage (s.engageOrVerify_lineOrder x k) fun k1 k2 h1 h2 => ?_
  rw [hl] at h1; cases h1
  obtain ⟨c, hc, hr, hm, rfl⟩ := a.reservedPort hk hl (.inl rfl)
  rcases s.kindOf_engageOrVerify x c.owner d _ lu hl with hp | ⟨ph, hp⟩ <;> rw [hp] at h2 <;> cases h2
  · exact .line (by simp) id
  · exact .line (by simp) fun _ => ⟨c, hc, hr, hm, rfl⟩
end

end Sys2Proof.Machine
end

section
/-! ## Every command -/

namespace Sys2Proof.Machine

/-! ### Requests -/

theorem Verdict.checked_executed {cs : List (Bool × Status)} {go : Verdict} {st : Status} {body : List Byte} {t : State}
    (h : Verdict.checked cs go = .executed st body t) : (∀ c ∈ cs, c.1 = false) ∧ go = .executed st body t := by
  unfold Verdict.checked at h
  split at h
  · cases h
  · next hn => exact ⟨firstRefusal_none.mp hn, h⟩

section
variable (s : State)

theorem State.taking_keepsLaws (k : RequestKind) (p : Port) (f : Frame) : s.KeepsLaws (s.taking k p f) :=
  .same (by simp) (by simp) (by simp) (by simp) fun r hr => by simpa using hr

theorem State.place_keepsLaws (p : Port) (f : Frame) (st : Status) (body : List Byte) (ex : Bool) :
    s.KeepsLaws (s.place p f st body ex) := .same rfl rfl rfl rfl fun _ h => h

theorem State.endOfServe_keepsLaws (o : Owner) : s.KeepsLaws (s.endOfServe o) := by
  cases o with
  | claimTable => exact s.endOfEvent_keepsLaws
  | sessionController | noticeStore | supervision | portInterface => exact .refl s

/-- A request command does nothing to the laws' objects but what an executed verdict does (R26, R191). -/
theorem State.serve_cases (k : RequestKind) (p : Port) (run : Frame → State → Verdict) :
    s.KeepsLaws (s.serve k p run) ∨ ∃ f st body t, s.Offered k p f ∧ run f (s.taking k p f) = .executed st body t
      ∧ s.serve k p run = (t.endOfServe k.owner).place p f st body true := by
  by_cases h : ∃ f, s.Offered k p f
  · obtain ⟨f, hf⟩ := h
    rw [State.serve_offered hf]
    cases hv : run f (s.taking k p f) with
    | refused st =>
      exact .inl (((s.taking_keepsLaws k p f).trans (State.endOfServe_keepsLaws _ _)).trans
        (State.place_keepsLaws _ p f st _ _))
    | executed st body t => exact .inr ⟨f, st, body, t, hf, hv, rfl⟩
  · rw [State.serve_not_offered fun f hf => h ⟨f, hf⟩]
    exact .inl (.refl s)
end

theorem State.claimOn_none {s : State} {p : Port} {x : ResNo} (h : s.claimOn p x = none) :
    ∀ c ∈ s.claims, c.owner = p → c.resource ≠ x := by
  intro c hc ho hx
  have := List.find?_eq_none.mp h c hc
  simp [ho, hx] at this

/-- A CLAIM that has passed its checks can be filed (R28, R29). -/
theorem State.claimChecks_fileable {s : State} {p : Port} {f : Frame} (h : ∀ c ∈ s.claimChecks p f, c.1 = false) :
    s.Fileable p (handleOf (f.byte 0)) f.items := by
  simp only [State.claimChecks, List.mem_append, List.mem_cons, or_imp, forall_and, forall_eq] at h
  obtain ⟨-, -, -, -, -, -, hdef, hsh, -, hfree, hdup, hown, -⟩ := h
  refine ⟨fun i hi => ?_, fun i hi hm k hk => ?_, by simpa using hfree, by simpa using hdup, fun i hi => ?_⟩
  · simpa [Option.isSome_iff_ne_none] using List.any_eq_false.mp hdef i hi
  · simpa [hm, hk] using List.any_eq_false.mp hsh i hi
  · exact State.claimOn_none (by simpa using List.any_eq_false.mp hown i hi)

/-- An executed request, but a DEFINE or an UNDEFINE, keeps the laws. -/
theorem RequestKind.verdict_keepsLaws {k : RequestKind} (hd : k ≠ .define) (hu : k ≠ .undefine) {p : Port} {f : Frame}
    {s t : State} {st : Status} {body : List Byte} (h : k.verdict p f s = .executed st body t) : s.KeepsLaws t := by
  cases k with
  | define => exact absurd rfl hd
  | undefine => exact absurd rfl hu
  | join =>
    obtain ⟨-, h⟩ := Verdict.checked_executed h; cases h
    exact (s.severPort_keepsLaws p .rejoin).trans (.same rfl rfl rfl rfl fun _ h => h)
  | leave =>
    obtain ⟨-, h⟩ := Verdict.checked_executed h; cases h
    exact s.endSession_keepsLaws p .idle
  | touch | sessionInfo | resourceInfo | holdings | partInfo =>
    obtain ⟨-, h⟩ := Verdict.checked_executed h; cases h
    exact .refl s
  | setRate | fetch | setSupervisor =>
    obtain ⟨-, h⟩ := Verdict.checked_executed h; cases h
    exact .same rfl rfl rfl rfl fun _ h => h
  | claim =>
    obtain ⟨hc, h⟩ := Verdict.checked_executed h
    unfold acceptedAnswer at h
    split at h <;> cases h <;> exact s.accept_keepsLaws p _ (State.claimChecks_fileable hc) _
  | cancel =>
    obtain ⟨-, h⟩ := Verdict.checked_executed h; cases h
    exact s.cancelRequest_keepsLaws p _
  | release =>
    obtain ⟨-, h⟩ := Verdict.checked_executed h; cases h
    exact s.release_keepsLaws p _
  | setLimits =>
    obtain ⟨-, h⟩ := Verdict.checked_executed h; cases h
    exact s.limitsEvent_keepsLaws _ _ _
  | setMode =>
    obtain ⟨-, h⟩ := Verdict.checked_executed h; cases h
    exact s.setModeEvent_keepsLaws _
  | forceRelease =>
    obtain ⟨-, h⟩ := Verdict.checked_executed h; cases h
    exact s.forceReleaseEvent_keepsLaws _
  | disable =>
    obtain ⟨-, h⟩ := Verdict.checked_executed h; cases h
    exact s.disableEvent_keepsLaws _
  | clearFault =>
    obtain ⟨-, h⟩ := Verdict.checked_executed h; cases h
    exact s.clearFaultEvent_keepsLaws _
  | sever =>
    obtain ⟨-, h⟩ := Verdict.checked_executed h; cases h
    exact s.severPort_keepsLaws _ .supervisor
  | restart =>
    obtain ⟨-, h⟩ := Verdict.checked_executed h; cases h
    exact s.restartEvent_keepsLaws

/-! ### Internal events -/

section
variable (s : State) (x : ResNo)

theorem State.passTo_zero : s.passTo 0 = s := by
  show { s with now := max s.now 0 } = s
  rw [Nat.max_zero]

theorem State.takeReport_keepsLaws (k : LineReportKind) (act : State → State)
    (h : (∃ r, s.oldestReport x k = some r ∧ r.current = true) → s.KeepsLaws (act (s.dropReport x))) :
    s.KeepsLaws (s.takeReport x k act) := by
  unfold State.takeReport
  split
  · exact .refl s
  · next r hr =>
    refine .trans ?_ (State.endOfEvent_keepsLaws _)
    split
    · next hc => exact h ⟨r, hr, hc⟩
    · exact s.dropReport_keepsLaws x

/-- A current "guard elapsed" is taken where the guard interval has passed (R83, R85). -/
theorem State.onGuardElapsed_keepsLaws (h : ∃ r, s.oldestReport x .guardElapsed = some r ∧ r.current = true) :
    s.KeepsLaws (State.onGuardElapsed x (s.dropReport x)) := by
  obtain ⟨r, hr, hc⟩ := h
  have reported : s.GuardReported x := by
    simp only [State.oldestReport, Option.filter_eq_some_iff, beq_iff_eq] at hr
    have hx := List.find?_some hr.1
    exact ⟨r, List.mem_of_find?_eq_some hr.1, by simpa using hx, hr.2, hc⟩
  unfold State.onGuardElapsed
  split
  · next hs =>
    obtain ⟨d, lu, hl⟩ := State.lineState_eq hs
    have hl' : s.kindOf x = some (.line d .cooling lu) := hl
    refine .trans (t := s.setLineState x .vacant) ⟨s.guardElapsed_keepsLines x hl' reported,
      fun a => a.passage (s.setLineState_lineOrder x _) fun k k' h h' => ?_⟩ (State.dropReport_keepsLaws _ x)
    rw [hl'] at h; cases h
    rw [s.kindOf_setLineState x _ d _ lu hl'] at h'; cases h'
    exact .line (by simp) id
  · next k hs hk =>
    obtain ⟨d, lu, hl⟩ := State.lineState_eq hs
    have passes : s.KeepsLines ((s.dropReport x).engageOrVerify x k) :=
      s.engageOrVerify_keepsLines x k hl (.inr (.inr ⟨reported, .inr rfl⟩)) fun _ hr => List.mem_of_mem_eraseP hr
    exact .trans ⟨passes, fun a => ((s.dropReport_keepsLaws x).consistent a).engageOrVerify hk hl⟩
      (State.evaluate_keepsLaws _ _)
  · exact s.dropReport_keepsLaws x

theorem State.onReleaseSeen_keepsLaws : s.KeepsLaws (State.onReleaseSeen x s) := by
  unfold State.onReleaseSeen
  split
  · next k hs hk =>
    obtain ⟨d, lu, hl⟩ := State.lineState_eq hs
    exact (s.beginEngage_keepsLaws x hk hl).trans (State.evaluate_keepsLaws _ _)
  · exact .refl s

theorem State.onVerifyTimeout_keepsLaws : s.KeepsLaws (State.onVerifyTimeout x s) := by
  unfold State.onVerifyTimeout
  split
  · next hs => exact s.confirmationFault_keepsLaws x _ hs (.inl rfl)
  · exact .refl s

theorem State.onEngagedSeen_keepsLaws : s.KeepsLaws (State.onEngagedSeen x s) := by
  unfold State.onEngagedSeen
  split
  · next p h hs hr =>
    unfold State.completeItem
    split
    · next f pend hsl =>
      split
      · have completed : s.KeepsLaws (s.setSlot p h (.assembling f (pend.erase x))) :=
          ⟨s.setSlot_keepsLines p h _, fun a => a.completeItem hsl hs⟩
        dsimp only
        split
        · next he =>
          refine (completed.trans ⟨State.grant_keepsLines _ _ p h, fun a => a.grant none (f := f) (pend := pend.erase x) (by simp) fun i _ => ?_⟩).trans
            (State.evaluate_keepsLaws _ _)
          rw [List.isEmpty_iff.mp he]
          exact List.not_mem_nil
        · exact completed
      · exact .refl s
    · exact .refl s
  · exact .refl s

theorem State.onEngageTimeout_keepsLaws : s.KeepsLaws (State.onEngageTimeout x s) := by
  unfold State.onEngageTimeout
  split
  · next hs => exact s.confirmationFault_keepsLaws x _ hs (.inr rfl)
  · exact .refl s

theorem State.onConfirmationLost_keepsLaws : s.KeepsLaws (State.onConfirmationLost x s) := by
  unfold State.onConfirmationLost
  split
  · next hs =>
    exact .trans ⟨(s.faultResource_keepsLines x _).trans (State.revoke_keepsLines _ x _ _), fun a => a.confirmLost hs⟩
      (State.evaluate_keepsLaws _ _)
  · next hs => exact s.confirmationFault_keepsLaws x _ hs (.inr rfl)
  · exact .refl s
end

end Sys2Proof.Machine
end

section
/-! ## Definitions -/

namespace Sys2Proof.Machine

/-! ### The fields of a DEFINE -/

/-- A pattern is too wide where it has a 1 at or above the width (R4). -/
theorem patternTooWide_iff (w b : Byte) : patternTooWide w b = true ↔ ∃ i, w.toNat ≤ i ∧ b.getLsbD i = true := by
  unfold patternTooWide
  rw [bne_iff_ne]
  constructor
  · intro h
    by_contra hn
    push Not at hn
    refine h (BitVec.eq_of_getLsbD_eq fun i _ => ?_)
    rw [BitVec.getLsbD_ushiftRight]
    simpa using hn (w.toNat + i) (by omega)
  · rintro ⟨i, hi, hb⟩ h
    have : (b >>> w.toNat).getLsbD (i - w.toNat) = true := by
      rw [BitVec.getLsbD_ushiftRight, Nat.add_sub_cancel' hi, hb]
    rw [h] at this
    simp at this

theorem LineDef.any_drive (d : LineDef) (P : Byte → Bool) : d.drive.toList.any P = true ↔ ∃ k : Port, P d.drive[k] = true := by
  rw [List.any_eq_true]
  constructor
  · rintro ⟨b, hb, hP⟩
    obtain ⟨i, hi, rfl⟩ := Vector.mem_iff_getElem.mp (Vector.mem_toList_iff.mp hb)
    exact ⟨⟨i, hi⟩, hP⟩
  · rintro ⟨k, hP⟩
    exact ⟨d.drive[k], Vector.mem_toList_iff.mpr (Vector.getElem_mem k.isLt), hP⟩

/-- The line fields that R11 refuses, by R3 and R4. -/
theorem LineDef.badFields_iff (d : LineDef) : d.badFields = true ↔
    31 < d.firstLine.toNat ∨ d.width.toNat = 0 ∨ 8 < d.width.toNat ∨ 32 < d.firstLine.toNat + d.width.toNat
    ∨ (∃ i, d.width.toNat ≤ i ∧ (d.idle.getLsbD i = true ∨ ∃ k : Port, d.drive[k].getLsbD i = true))
    ∨ ∃ k : Port, d.drive[k] = d.idle := by
  have zero : d.width = 0 ↔ d.width.toNat = 0 := BitVec.toNat_inj.symm
  have wide : (∃ i, d.width.toNat ≤ i ∧ (d.idle.getLsbD i = true ∨ ∃ k : Port, d.drive[k].getLsbD i = true)) ↔
      patternTooWide d.width d.idle = true ∨ ∃ k : Port, patternTooWide d.width d.drive[k] = true := by
    simp only [patternTooWide_iff, and_or_left, exists_or]
    refine or_congr_right ⟨?_, ?_⟩
    · rintro ⟨i, hi, k, hk⟩; exact ⟨k, i, hi, hk⟩
    · rintro ⟨k, i, hi, hk⟩; exact ⟨i, hi, k, hk⟩
  unfold LineDef.badFields
  rw [wide]
  simp only [Bool.or_eq_true, decide_eq_true_eq, LineDef.any_drive, beq_iff_eq, zero, or_assoc]

theorem Frame.lineDef_drive (f : Frame) (k : Port) : f.lineDef.drive[k] = f.byte (12 + k.val) := by
  simp [Frame.lineDef]

theorem Frame.badConfirm_iff (f : Frame) : f.badConfirm = true ↔ f.byte 20 ≠ 0xFF ∧ (15 < (f.byte 20).toNat
    ∨ 1 < (f.byte 21).toNat ∨ (f.word 22).toNat = 0 ∨ 5000 < (f.word 22).toNat) := by
  simp [Frame.badConfirm, or_assoc]

/-- The line fields of a DEFINE, by their offsets in the body (R188). -/
theorem Frame.badFields_iff (f : Frame) : f.lineDef.badFields = true ↔
    31 < (f.byte 9).toNat ∨ (f.byte 10).toNat = 0 ∨ 8 < (f.byte 10).toNat ∨ 32 < (f.byte 9).toNat + (f.byte 10).toNat
    ∨ (∃ j, 11 ≤ j ∧ j ≤ 17 ∧ ∃ i, (f.byte 10).toNat ≤ i ∧ (f.byte j).getLsbD i = true)
    ∨ ∃ j, 12 ≤ j ∧ j ≤ 17 ∧ f.byte j = f.byte 11 := by
  have port : ∀ {j}, 12 ≤ j → j ≤ 17 → ∃ k : Port, 12 + k.val = j := fun {j} h1 h2 => ⟨⟨j - 12, by omega⟩, by simp; omega⟩
  rw [LineDef.badFields_iff]
  simp only [Frame.lineDef_drive]
  refine or_congr_right (or_congr_right (or_congr_right (or_congr_right (or_congr ⟨?_, ?_⟩ ⟨?_, ?_⟩))))
  · rintro ⟨i, hi, hb | ⟨k, hb⟩⟩
    · exact ⟨11, by omega, by omega, i, hi, hb⟩
    · exact ⟨12 + k.val, by omega, by omega, i, hi, hb⟩
  · rintro ⟨j, h1, h2, i, hi, hb⟩
    by_cases e : j = 11
    · subst e; exact ⟨i, hi, .inl hb⟩
    · obtain ⟨k, rfl⟩ := port (by omega) h2
      exact ⟨i, hi, .inr ⟨k, hb⟩⟩
  · rintro ⟨k, hb⟩; exact ⟨12 + k.val, by omega, by omega, hb⟩
  · rintro ⟨j, h1, h2, hb⟩
    obtain ⟨k, rfl⟩ := port h1 h2
    exact ⟨k, hb⟩

theorem Frame.isLineForm_iff (f : Frame) : f.isLineForm = true ↔ f.length = 27 := by simp [Frame.isLineForm]

/-- The form of a DEFINE is that of its kind (R11, R188). -/
theorem Frame.badForm_iff (f : Frame) : (1 < (f.byte 1).toNat ∨ ((f.byte 1 == 1) != f.isLineForm) = true) ↔
    1 < (f.byte 1).toNat ∨ (f.byte 1 = 0 ∧ f.length = 27) ∨ (f.byte 1 = 1 ∧ f.length ≠ 27) := by
  by_cases h : 1 < (f.byte 1).toNat
  · simp [h]
  have : f.byte 1 = 0 ∨ f.byte 1 = 1 := by
    rcases Nat.lt_or_ge (f.byte 1).toNat 1 with h0 | h1
    · exact .inl (BitVec.eq_of_toNat_eq (by simpa using h0))
    · exact .inr (BitVec.eq_of_toNat_eq (by simp; omega))
  rcases this with e | e <;> simp [e, Frame.isLineForm]

/-- The DEFINEs that R11 refuses. -/
theorem Frame.badDefine_iff (f : Frame) : f.badDefine = true ↔
    63 < (f.byte 0).toNat ∨ 1 < (f.byte 1).toNat ∨ (f.byte 1 = 0 ∧ f.length = 27) ∨ (f.byte 1 = 1 ∧ f.length ≠ 27)
    ∨ 1 < (f.byte 4).toNat
    ∨ (f.length = 27 ∧ (f.byte 4 = 1 ∨ f.lineDef.badFields = true ∨ f.badConfirm = true)) := by
  have form := f.badForm_iff
  unfold Frame.badDefine
  simp only [Bool.or_eq_true, Bool.and_eq_true, decide_eq_true_eq, beq_iff_eq, Frame.isLineForm_iff, or_assoc]
  rw [← or_assoc (a := 1 < _), form, or_assoc, or_assoc]

/-- The form of a DEFINE that has passed the checks of R11. -/
theorem Frame.goodDefine {f : Frame} (h : f.badDefine = false) :
    (f.byte 0).toNat ≤ 63
    ∧ (f.byte 1 = 0 ∧ f.isLineForm = false
      ∨ f.byte 1 = 1 ∧ f.isLineForm = true ∧ f.lineDef.badFields = false ∧ f.badConfirm = false) := by
  rw [← Bool.not_eq_true, Frame.badDefine_iff] at h
  push Not at h
  obtain ⟨h0, h1, htok, hline, -, hgood⟩ := h
  refine ⟨h0, ?_⟩
  by_cases e : f.length = 27
  · obtain ⟨-, hf, hc⟩ := hgood e
    have : f.byte 1 ≠ 0 := fun h => htok h e
    refine .inr ⟨BitVec.eq_of_toNat_eq ?_, f.isLineForm_iff.mpr e, by simpa using hf, by simpa using hc⟩
    have : (f.byte 1).toNat ≠ 0 := fun h => this (BitVec.eq_of_toNat_eq (by simpa using h))
    simp; omega
  · have : f.byte 1 ≠ 1 := fun h => e (hline h)
    refine .inl ⟨BitVec.eq_of_toNat_eq ?_, by rw [← Bool.not_eq_true, f.isLineForm_iff]; exact e⟩
    have : (f.byte 1).toNat ≠ 1 := fun h => this (BitVec.eq_of_toNat_eq (by simpa using h))
    simp; omega

/-- A definition that has passed the parameter checks lies within its limits (R3, R4, R6). -/
theorem Frame.lineDef_valid {f : Frame} (hf : f.lineDef.badFields = false) (hc : f.badConfirm = false) :
    f.lineDef.Valid := by
  rw [← Bool.not_eq_true, LineDef.badFields_iff] at hf
  rw [← Bool.not_eq_true, Frame.badConfirm_iff] at hc
  push Not at hf
  obtain ⟨-, h1, h2, h3, h4, h5⟩ := hf
  refine ⟨⟨by omega, by omega⟩, by omega, fun i hi => ?_, h5, fun b hb => ?_⟩
  · obtain ⟨ha, hd⟩ := h4 i hi
    exact ⟨by simpa using ha, fun k => by simpa using hd k⟩
  · have hn : f.byte 20 ≠ 0xFF := by
      intro e
      simp [Frame.lineDef, Frame.confirmBinding, e] at hb
    have : b.timeout = f.word 22 := by
      simp only [Frame.lineDef, Frame.confirmBinding, hn, if_false, Option.some.injEq] at hb
      rw [← hb]
    rw [this]
    have := not_and.mp hc hn
    omega

/-! ### The redefinition of a resource -/

/-- The record that a DEFINE of good fields writes at the time `now` and that meets the other definitions (R12 to R14). -/
def State.DefinedWell (s : State) (x : ResNo) (r : Resource) : Prop :=
  (∃ sh, r.kind = .token sh .vacant)
  ∨ ∃ d, r.kind = .line d .cooling { applied := none, phase := .guard (s.now + d.guard.toNat) } ∧ d.Valid
    ∧ s.lineConflict x d = false ∧ s.confirmConflict x d = false

/-- Between `s` and `t` the supervisor has, in SETUP, defined the resource `x` or erased its definition (R13, R14, R16). -/
structure State.Redefines (s t : State) (x : ResNo) (v : Option Resource) : Prop where
  setup : s.mode = .setup
  now : t.now = s.now
  claims : t.claims = s.claims
  slots : t.slots = s.slots
  resource : ∀ y, t.resource y = if x = y then v else s.resource y
  reports : ∀ y, t.GuardReported y → y ≠ x ∧ s.GuardReported y
  good : ∀ r, v = some r → s.DefinedWell x r

/-- The whole part has been reset (R18, R54). -/
structure State.Resets (s t : State) : Prop where
  now : t.now = s.now
  claims : t.claims = []
  slot : ∀ p h, t.slot p h = .free
  resource : ∀ x, t.resource x = none

/-- What a command may do: time passes and the laws are kept, a resource is redefined, or the part is reset. -/
inductive State.Event (s t : State) : Prop where
  | keeps (T : Time) (a : (s.passTo T).KeepsLaws t)
  | redefines (x : ResNo) (v : Option Resource) (a : s.Redefines t x v)
  | resets (a : s.Resets t)

section
variable {s t : State}

theorem State.KeepsLaws.event (a : s.KeepsLaws t) : s.Event t := .keeps 0 (by rwa [State.passTo_zero])

theorem State.same_event (hn : t.now = s.now) (hc : t.claims = s.claims) (hs : t.slots = s.slots)
    (hr : t.resources = s.resources) (hl : ∀ r ∈ t.lineReports, r ∈ s.lineReports) : s.Event t :=
  (State.KeepsLaws.same hn hc hs hr hl).event

/-- What the answer of an executed DEFINE or UNDEFINE leaves of the taking state's tables (R13, R14, R16). -/
theorem State.redefine_redefines {k : RequestKind} {p : Port} {f : Frame} {st : Status} {body : List Byte} {x : ResNo}
    {v : Option Resource} (hm : s.mode = .setup) (hv : ∀ r, v = some r → (s.taking k p f).DefinedWell x r) :
    s.Redefines (((((s.taking k p f).setResource x v).staleReports x).endOfServe k.owner).place p f st body true) x v := by
  have lines := State.endOfServe_keepsLaws (((s.taking k p f).setResource x v).staleReports x) k.owner
  have served : ∀ u : State, (u.endOfServe k.owner).claims = u.claims ∧ (u.endOfServe k.owner).slots = u.slots
      ∧ (u.endOfServe k.owner).resources = u.resources ∧ (u.endOfServe k.owner).lineReports = u.lineReports := fun u => by
    cases k.owner <;> simp [State.endOfServe]
  obtain ⟨hc, hs, hr, hl⟩ := served (((s.taking k p f).setResource x v).staleReports x)
  refine ⟨hm, ?_, ?_, ?_, fun y => ?_, fun y hy => ?_, fun r e => ?_⟩
  · exact lines.lines.now.trans (s.taking_now k p f)
  · exact hc.trans (s.taking_claims k p f)
  · exact hs.trans (s.taking_slots k p f)
  · rw [State.resource_place, State.resource, hr]
    show ((s.taking k p f).setResource x v).resource y = _
    rw [State.resource_setResource, State.taking_resource]
  · have hy := (State.GuardReported.congr hl).mp (show State.GuardReported (State.endOfServe _ _) y from hy)
    rw [State.guardReported_staleReports] at hy
    exact ⟨hy.1, (State.GuardReported.congr (s.taking_lineReports k p f)).mp hy.2⟩
  · refine (hv r e).imp id ?_
    rintro ⟨d, hd, hval, h1, h2⟩
    rw [State.taking_now] at hd
    have e1 : (s.taking k p f).lineConflict x d = s.lineConflict x d := by simp [State.lineConflict]
    have e2 : (s.taking k p f).confirmConflict x d = s.confirmConflict x d := by simp [State.confirmConflict]
    exact ⟨d, hd, hval, e1 ▸ h1, e2 ▸ h2⟩

theorem State.defined_well {x : ResNo} {f : Frame} (hb : f.badDefine = false)
    (h1 : (f.isLineForm && s.lineConflict x f.lineDef) = false)
    (h2 : (f.isLineForm && s.confirmConflict x f.lineDef) = false) : s.DefinedWell x (f.defined s.now) := by
  obtain ⟨-, ⟨-, hform⟩ | ⟨-, hform, hf, hc⟩⟩ := Frame.goodDefine hb
  · exact .inl ⟨f.byte 4 == 1, by simp [Frame.defined, hform]⟩
  · rw [hform, Bool.true_and] at h1 h2
    exact .inr ⟨f.lineDef, by simp [Frame.defined, hform], Frame.lineDef_valid hf hc, h1, h2⟩

theorem State.modeCheck_passed {m : DeviceMode} (h : (s.modeCheck m).1 = false) : s.mode = m := by
  simpa [State.modeCheck] using h

/-- A request command is an event (R26). -/
theorem RequestKind.event (k : RequestKind) (p : Port) (s : State) : s.Event (s.serve k p (k.verdict p)) := by
  rcases s.serve_cases k p (k.verdict p) with h | ⟨f, st, body, t, -, hv, e⟩
  · exact h.event
  rw [e]
  by_cases hk : k ≠ .define ∧ k ≠ .undefine
  · exact ((((s.taking_keepsLaws k p f).trans (RequestKind.verdict_keepsLaws hk.1 hk.2 hv)).trans
      (State.endOfServe_keepsLaws _ _)).trans (State.place_keepsLaws ..)).event
  have hk' : k = .define ∨ k = .undefine := by
    by_contra hn
    exact hk (not_or.mp hn)
  rcases hk' with rfl | rfl
  · obtain ⟨hc, hv⟩ := Verdict.checked_executed hv
    cases hv
    simp only [List.mem_append, List.mem_cons, or_imp, forall_and, forall_eq] at hc
    obtain ⟨-, hm, hb, -, h1, h2, -⟩ := hc
    exact .redefines _ _ (State.redefine_redefines ((s.taking_mode ..).symm.trans (State.modeCheck_passed hm)) fun r e => by
      cases e; exact State.defined_well hb h1 h2)
  · obtain ⟨hc, hv⟩ := Verdict.checked_executed hv
    cases hv
    simp only [List.mem_append, List.mem_cons, or_imp, forall_and, forall_eq] at hc
    obtain ⟨-, hm, -⟩ := hc
    exact .redefines _ _ (State.redefine_redefines ((s.taking_mode ..).symm.trans (State.modeCheck_passed hm)) nofun)
end

/-! ## Every command is an event -/

section
variable (s : State) (p : Port)

theorem windowExpiry_event : ∃ t, execWindowExpiry p s = .next t ∧ s.Event t := by
  refine ⟨_, rfl, ?_⟩
  split
  · next o _ =>
    refine .keeps o.windowEnds ?_
    unfold State.missFirst
    split
    · exact State.severPort_keepsLaws _ p _
    · exact State.setSession_keepsLaws _ p _
  · next o l _ =>
    refine .keeps o.windowEnds ?_
    split
    · unfold State.windowShown
      split
      · exact .same rfl rfl rfl rfl fun _ h => h
      · exact State.setSession_keepsLaws _ p _
    · unfold State.windowMissed
      split
      · exact State.severPort_keepsLaws _ p _
      · exact State.setSession_keepsLaws _ p _
  · exact (State.KeepsLaws.refl s).event

theorem severInputFiltered_event : ∃ t, execSeverInputFiltered p s = .next t ∧ s.Event t := by
  refine ⟨_, rfl, ?_⟩
  split
  · exact (State.KeepsLaws.refl s).event
  · next T _ =>
    refine .keeps T ?_
    have settled : (s.passTo T).KeepsLaws ((s.passTo T).setSever p s.severInputs[p].settle) :=
      .same rfl rfl rfl rfl fun _ h => h
    dsimp only
    split
    · exact settled.trans (State.severPort_keepsLaws _ p _)
    · exact settled

theorem breakDetected_event : ∃ t, execBreakDetected p s = .next t ∧ s.Event t := by
  refine ⟨_, rfl, ?_⟩
  split
  · next since _ =>
    exact .keeps (since + Config.breakUnits) ((State.setPort_keepsLaws _ p _).trans (State.severPort_keepsLaws _ p _))
  · exact (State.KeepsLaws.refl s).event

theorem liveAgain_event : ∃ t, execLiveAgain p s = .next t ∧ s.Event t := by
  refine ⟨_, rfl, ?_⟩
  split
  · exact (State.KeepsLaws.refl s).event
  · have taken : s.KeepsLaws { s with liveReports := s.liveReports.eraseP (·.port == p) } := .same rfl rfl rfl rfl fun _ h => h
    exact ((taken.trans (State.evaluate_keepsLaws _ _)).trans (State.endOfEvent_keepsLaws _)).event

theorem State.acknowledge_keepsLaws (a : AckEvent) : s.KeepsLaws (s.acknowledge a) := by
  unfold State.acknowledge
  split
  · next hd =>
    split
    · exact ⟨State.setSlot_keepsLines .., fun a => a.freeClosed _ _ (by rw [hd]; rfl)⟩
    · exact .refl _
  · exact .refl _

theorem outcomeAcknowledged_event (h : Handle) : ∃ t, execOutcomeAcknowledged p h s = .next t ∧ s.Event t := by
  refine ⟨_, rfl, ?_⟩
  split
  · exact (State.KeepsLaws.refl s).event
  · next a _ =>
    have taken : s.KeepsLaws { s with ackEvents := s.ackEvents.eraseP fun a => a.port == p && a.handle == h } :=
      .same rfl rfl rfl rfl fun _ h => h
    exact ((taken.trans (State.acknowledge_keepsLaws _ a)).trans (State.endOfEvent_keepsLaws _)).event

theorem noClaimsRemain_event : ∃ t, execNoClaimsRemain s = .next t ∧ s.Event t := by
  refine ⟨_, rfl, ?_⟩
  split
  · exact (State.KeepsLaws.refl s).event
  · next current rest _ =>
    have taken : s.KeepsLaws { s with drainReports := rest } := .same rfl rfl rfl rfl fun _ h => h
    dsimp only
    split
    · exact (taken.trans (State.drainToSetup_keepsLaws _)).event
    · exact taken.event

theorem waitExpiry_event (h : Handle) : ∃ t, execWaitExpiry p h s = .next t ∧ s.Event t := by
  refine ⟨_, rfl, ?_⟩
  split
  · next T _ =>
    exact .keeps T (((State.endRequest_keepsLaws _ p h _ _).trans (State.evaluate_keepsLaws _ _)).trans
      (State.endOfEvent_keepsLaws _))
  · exact (State.KeepsLaws.refl s).event

theorem holdExpiry_event (x : ResNo) : ∃ t, execHoldExpiry p x s = .next t ∧ s.Event t := by
  refine ⟨_, rfl, ?_⟩
  split
  · next T _ =>
    refine .keeps T (.trans ?_ (State.endOfEvent_keepsLaws _))
    have overtime := (s.passTo T).setOvertime_keepsLaws p x
    split
    · exact overtime
    · exact (overtime.trans (State.beginYield_keepsLaws _ x _)).trans (State.evaluate_keepsLaws _ _)
  · exact (State.KeepsLaws.refl s).event

theorem graceExpiry_event (x : ResNo) : ∃ t, execGraceExpiry p x s = .next t ∧ s.Event t := by
  refine ⟨_, rfl, ?_⟩
  split
  · next T _ =>
    exact .keeps T (((State.revoke_keepsLaws _ x _ _).trans (State.evaluate_keepsLaws _ _)).trans
      (State.endOfEvent_keepsLaws _))
  · exact (State.KeepsLaws.refl s).event

theorem phaseTimerExpiry_event (x : ResNo) : ∃ t, execPhaseTimerExpiry x s = .next t ∧ s.Event t := by
  refine ⟨_, rfl, ?_⟩
  split
  · next T k h =>
    obtain ⟨lu, hlu, he⟩ := Option.bind_eq_some_iff.mp h
    exact .keeps T (State.phaseReport_keepsLaws _ x ((s.passTo T).phaseEnds_keepsLines x hlu he (Nat.le_max_right _ _)))
  · exact (State.KeepsLaws.refl s).event

theorem confirmFilterChange_event (c : ConfNo) : ∃ t, execConfirmFilterChange c s = .next t ∧ s.Event t := by
  refine ⟨_, rfl, ?_⟩
  split
  · exact (State.KeepsLaws.refl s).event
  · next T _ =>
    have changed : (s.passTo T).KeepsLaws ((s.passTo T).setConfirm c s.confirmInputs[c].settle) :=
      .same rfl rfl rfl rfl fun _ h => h
    exact .keeps T (changed.trans (.foldl _ (fun s x => s.meetLevel_keepsLaws x c) _ _))

theorem pinReset_resets : ∃ t, execPinReset s = .next t ∧ s.Resets t := by
  refine ⟨_, rfl, rfl, rfl, fun p h => ?_, fun x => ?_⟩
  · simp [State.afterReset, State.slot]
  · simp [State.afterReset, State.resource]

theorem State.takeFrame_keepsLaws (f : Frame) : s.KeepsLaws (s.takeFrame p f) := by
  unfold State.takeFrame
  split
  · exact s.setPort_keepsLaws p _
  · split
    · exact s.place_keepsLaws p f _ _ _
    · exact s.setPort_keepsLaws p _

/-! The commands of a Port Interface and of the input filters touch no table of the laws. -/

theorem frameReport_event : ∃ t, execFrameReport p s = .next t ∧ s.Event t := by
  refine ⟨_, rfl, ?_⟩
  split
  · exact ((s.setPort_keepsLaws p _).trans (State.seeFrame_keepsLaws _ p _)).event
  · exact (State.KeepsLaws.refl s).event

theorem takeRequest_event : ∃ t, execTakeRequest p s = .next t ∧ s.Event t := by
  refine ⟨_, rfl, ?_⟩
  split
  · split
    · exact ((s.setPort_keepsLaws p _).trans (State.takeFrame_keepsLaws _ p _)).event
    · exact (State.KeepsLaws.refl s).event
  · exact (State.KeepsLaws.refl s).event

theorem frameComplete_event : ∃ t, execFrameComplete p s = .next t ∧ s.Event t := by
  refine ⟨_, rfl, ?_⟩
  split
  · exact (s.setPort_keepsLaws p _).event
  · exact (State.KeepsLaws.refl s).event

theorem characterReceived_event (c : Byte) : ∃ t, execCharacterReceived p c s = .next t ∧ s.Event t := by
  refine ⟨_, rfl, ?_⟩
  split
  · exact (s.setPort_keepsLaws p _).event
  · exact (State.KeepsLaws.refl s).event

theorem framingError_event : ∃ t, execFramingError p s = .next t ∧ s.Event t := by
  refine ⟨_, rfl, ?_⟩
  split
  · exact (s.setPort_keepsLaws p _).event
  · exact (State.KeepsLaws.refl s).event

theorem silenceLimit_event : ∃ t, execSilenceLimit p s = .next t ∧ s.Event t := by
  refine ⟨_, rfl, ?_⟩
  split
  · next T _ => exact .keeps T (State.setPort_keepsLaws _ p _)
  · exact (State.KeepsLaws.refl s).event

theorem replySent_event : ∃ t, execReplySent p s = .next t ∧ s.Event t := by
  refine ⟨_, rfl, ?_⟩
  split
  · exact .keeps _ (State.setPort_keepsLaws _ p _)
  · exact (State.KeepsLaws.refl s).event
end

theorem exec_event (i : Instr) (s : State) : ∃ t, exec i s = .next t ∧ s.Event t := by
  have request : ∀ (k : RequestKind) p, ∃ t, exec (k.command p) s = .next t ∧ s.Event t := fun k p =>
    ⟨_, exec_command k p s, k.event p s⟩
  cases i with
  | join p => exact request .join p
  | leave p => exact request .leave p
  | touch p => exact request .touch p
  | setRate p => exact request .setRate p
  | claim p => exact request .claim p
  | cancel p => exact request .cancel p
  | release p => exact request .release p
  | fetch p => exact request .fetch p
  | sessionInfo p => exact request .sessionInfo p
  | resourceInfo p => exact request .resourceInfo p
  | holdings p => exact request .holdings p
  | partInfo p => exact request .partInfo p
  | define p => exact request .define p
  | undefine p => exact request .undefine p
  | setLimits p => exact request .setLimits p
  | setMode p => exact request .setMode p
  | setSupervisor p => exact request .setSupervisor p
  | forceRelease p => exact request .forceRelease p
  | disable p => exact request .disable p
  | clearFault p => exact request .clearFault p
  | sever p => exact request .sever p
  | restart p => exact request .restart p
  | frameComplete p => exact frameComplete_event s p
  | silenceLimit p => exact silenceLimit_event s p
  | takeRequest p => exact takeRequest_event s p
  | replySent p => exact replySent_event s p
  | breakDetected p => exact breakDetected_event s p
  | frameReport p => exact frameReport_event s p
  | windowExpiry p => exact windowExpiry_event s p
  | severInputChange p b => exact ⟨_, rfl, State.same_event rfl rfl rfl rfl fun _ h => h⟩
  | severInputFiltered p => exact severInputFiltered_event s p
  | liveAgain p => exact liveAgain_event s p
  | outcomeAcknowledged p h => exact outcomeAcknowledged_event s p h
  | noClaimsRemain => exact noClaimsRemain_event s
  | waitExpiry p h => exact waitExpiry_event s p h
  | holdExpiry p x => exact holdExpiry_event s p x
  | graceExpiry p x => exact graceExpiry_event s p x
  | phaseTimerExpiry x => exact phaseTimerExpiry_event s x
  | confirmInputChange c b => exact ⟨_, rfl, State.same_event rfl rfl rfl rfl fun _ h => h⟩
  | confirmFilterChange c => exact confirmFilterChange_event s c
  | guardElapsed x => exact ⟨_, rfl, (s.takeReport_keepsLaws x _ _ (s.onGuardElapsed_keepsLaws x)).event⟩
  | releaseSeen x =>
    exact ⟨_, rfl, (s.takeReport_keepsLaws x _ _ fun _ =>
      (s.dropReport_keepsLaws x).trans (State.onReleaseSeen_keepsLaws _ x)).event⟩
  | verifyTimeout x =>
    exact ⟨_, rfl, (s.takeReport_keepsLaws x _ _ fun _ =>
      (s.dropReport_keepsLaws x).trans (State.onVerifyTimeout_keepsLaws _ x)).event⟩
  | engagedSeen x =>
    exact ⟨_, rfl, (s.takeReport_keepsLaws x _ _ fun _ =>
      (s.dropReport_keepsLaws x).trans (State.onEngagedSeen_keepsLaws _ x)).event⟩
  | engageTimeout x =>
    exact ⟨_, rfl, (s.takeReport_keepsLaws x _ _ fun _ =>
      (s.dropReport_keepsLaws x).trans (State.onEngageTimeout_keepsLaws _ x)).event⟩
  | confirmationLost x =>
    exact ⟨_, rfl, (s.takeReport_keepsLaws x _ _ fun _ =>
      (s.dropReport_keepsLaws x).trans (State.onConfirmationLost_keepsLaws _ x)).event⟩
  | pinReset =>
    obtain ⟨t, ht, hr⟩ := pinReset_resets s
    exact ⟨t, ht, .resets hr⟩
  | characterReceived p c => exact characterReceived_event s p c
  | framingError p => exact framingError_event s p
  | receiveLineChange p a b => exact ⟨_, rfl, (s.setPort_keepsLaws p _).event⟩

/-- Every step is an event: of the command at the front of the queue, of the timer that is due, or of the time alone. -/
theorem step_event {s t : State} (h : step s = .next t) : s.Event t := by
  have run : ∀ (i : Instr) (u : State), exec i u = .next t → u.Event t := by
    intro i u hu
    obtain ⟨t', ht, he⟩ := exec_event i u
    rw [ht] at hu; cases hu
    exact he
  unfold step at h
  split at h
  · next i rest _ =>
    cases run i _ h with
    | keeps T a =>
      have taken : (s.passTo T).KeepsLaws (({ s with pending := rest } : State).passTo T) := .same rfl rfl rfl rfl fun _ h => h
      exact .keeps T (taken.trans a)
    | redefines x v a => exact .redefines x v ⟨a.setup, a.now, a.claims, a.slots, a.resource, a.reports, a.good⟩
    | resets a => exact .resets ⟨a.now, a.claims, a.slot, a.resource⟩
  · unfold State.idle at h
    split at h
    · exact run _ s h
    · cases h
      exact .keeps (s.now + 1) (.same (Nat.max_eq_right (Nat.le_succ _)).symm rfl rfl rfl fun _ h => h)

end Sys2Proof.Machine
end

section
/-! ## The laws of the lines and of the assigned claims -/

namespace Sys2Proof.Machine

section
variable {s t : State} {x : ResNo}

theorem State.Redefines.kindOf {v : Option Resource} (a : s.Redefines t x v) (y : ResNo) :
    t.kindOf y = if x = y then v.map (·.kind) else s.kindOf y := by
  simp only [State.kindOf, a.resource]; split <;> rfl

theorem State.Redefines.lineDef {v : Option Resource} (a : s.Redefines t x v) (y : ResNo) :
    t.lineDef y = if x = y then v.bind (·.kind.lineDef) else s.lineDef y := by
  simp only [State.lineDef, a.resource]; split <;> rfl

theorem State.Resets.kindOf (a : s.Resets t) (y : ResNo) : t.kindOf y = none := by simp [State.kindOf, a.resource]

/-- A record that a DEFINE writes is a TOKEN resource's or a LINE resource's in COOLING (R13, R14). -/
theorem State.DefinedWell.kind {r : Resource} (h : s.DefinedWell x r) : (∃ sh, r.kind = .token sh .vacant)
    ∨ ∃ d, r.kind = .line d .cooling { applied := none, phase := .guard (s.now + d.guard.toNat) } :=
  h.imp id fun ⟨d, hd, _⟩ => ⟨d, hd⟩

/-! ### The applied patterns -/

theorem State.DefinedWell.driveLaw {r : Resource} (h : s.DefinedWell x r) : r.kind.DriveLaw := by
  rcases h.kind with ⟨sh, e⟩ | ⟨d, e⟩ <;> rw [e]
  · trivial
  · rfl

theorem step_driveLaw (h : step s = .next t) (law : s.DriveLaw) : t.DriveLaw := by
  intro y k hk
  cases step_event h with
  | keeps T a => exact a.lines.driveLaw law y k hk
  | redefines x v a =>
    rw [a.kindOf] at hk
    split at hk
    · obtain ⟨r, rfl, rfl⟩ := Option.map_eq_some_iff.mp hk
      exact (a.good r rfl).driveLaw
    · exact law y k hk
  | resets a => rw [a.kindOf] at hk; cases hk

/-! ### The definitions -/

theorem State.DefinitionLaw.congr (h : ∀ x, t.lineDef x = s.lineDef x) (law : s.DefinitionLaw) : t.DefinitionLaw where
  valid x d := by rw [h]; exact law.valid x d
  lines x y d e := by rw [h, h]; exact law.lines x y d e
  inputs x y d e b c := by rw [h, h]; exact law.inputs x y d e b c

/-- Groups that share a line meet. -/
theorem LineDef.meets_of_covers {d e : LineDef} {n : Nat} (hd : d.covers n = true) (he : e.covers n = true) :
    d.meets e = true := by
  simp only [LineDef.covers, LineDef.meets, decide_eq_true_eq] at *
  omega

theorem State.lineConflict_iff {d : LineDef} :
    s.lineConflict x d = true ↔ ∃ y e, y ≠ x ∧ s.lineDef y = some e ∧ d.meets e = true := by
  simp [State.lineConflict, Option.any_eq_true]

theorem State.confirmConflict_iff {d : LineDef} : s.confirmConflict x d = true ↔
    ∃ b y e c, d.confirm = some b ∧ y ≠ x ∧ s.lineDef y = some e ∧ e.confirm = some c ∧ c.input = b.input := by
  unfold State.confirmConflict
  cases d.confirm with
  | none => simp
  | some b =>
    have bind : ∀ y : ResNo, (∃ c, ((s.lineDef y).bind fun e => e.confirm) = some c ∧ c.input = b.input)
        ↔ ∃ e, s.lineDef y = some e ∧ ∃ c, e.confirm = some c ∧ c.input = b.input := fun y => by
      cases s.lineDef y <;> simp
    simp [Option.any_eq_true, bind]

/-- A new definition that is valid and conflicts with no other keeps the law of the definitions (R12). -/
theorem State.Redefines.definitionLaw {v : Option Resource} (a : s.Redefines t x v) (law : s.DefinitionLaw) :
    t.DefinitionLaw := by
  have fresh : ∀ d, t.lineDef x = some d → d.Valid ∧ s.lineConflict x d = false ∧ s.confirmConflict x d = false := by
    intro d hd
    rw [a.lineDef, if_pos rfl, Option.bind_eq_some_iff] at hd
    obtain ⟨r, hr, hd⟩ := hd
    rcases a.good r hr with ⟨sh, e⟩ | ⟨d', e, good⟩ <;> rw [e] at hd <;> cases hd
    exact good
  have other : ∀ {y}, x ≠ y → t.lineDef y = s.lineDef y := fun {y} h => by rw [a.lineDef, if_neg h]
  have apart : ∀ y d e, x ≠ y → t.lineDef x = some d → t.lineDef y = some e → ∀ n, d.covers n = true → e.covers n = false := by
    intro y d e hne hd he n hn
    rw [other hne] at he
    by_contra hc
    have := State.lineConflict_iff.mpr ⟨y, e, hne.symm, he, LineDef.meets_of_covers hn (by simpa using hc)⟩
    rw [(fresh d hd).2.1] at this
    cases this
  have unbound : ∀ y d e b c, x ≠ y → t.lineDef x = some d → t.lineDef y = some e → d.confirm = some b → e.confirm = some c →
      c.input ≠ b.input := by
    intro y d e b c hne hd he hb hc hi
    rw [other hne] at he
    have := State.confirmConflict_iff.mpr ⟨b, y, e, c, hb, hne.symm, he, hc, hi⟩
    rw [(fresh d hd).2.2] at this
    cases this
  refine ⟨fun y d hd => ?_, fun y z d e hne hd he n hn => ?_, fun y z d e b c hne hd he hb hc => ?_⟩
  · by_cases e : x = y
    · subst e; exact (fresh d hd).1
    · rw [other e] at hd; exact law.valid y d hd
  · by_cases ey : x = y
    · subst ey; exact apart z d e hne hd he n hn
    · by_cases ez : x = z
      · subst ez
        by_contra hc
        have := apart y e d ey he hd n (by simpa using hc)
        rw [hn] at this; cases this
      · rw [other ey] at hd; rw [other ez] at he
        exact law.lines y z d e hne hd he n hn
  · by_cases ey : x = y
    · subst ey; exact (unbound z d e b c hne hd he hb hc).symm
    · by_cases ez : x = z
      · subst ez; exact unbound y e d c b ey he hd hc hb
      · rw [other ey] at hd; rw [other ez] at he
        exact law.inputs y z d e b c hne hd he hb hc

theorem step_definitionLaw (h : step s = .next t) (law : s.DefinitionLaw) : t.DefinitionLaw := by
  cases step_event h with
  | keeps T a => exact State.DefinitionLaw.congr (s := s) (fun x => a.lines.lineDef x) law
  | redefines x v a => exact a.definitionLaw law
  | resets a =>
    have undefined : ∀ x, t.lineDef x = none := fun x => by simp [State.lineDef, a.resource]
    refine ⟨fun x d hd => ?_, fun x y d e _ hd => ?_, fun x y d e b c _ hd => ?_⟩ <;>
      · rw [undefined] at hd; cases hd

/-! ### The assigned claims -/

theorem State.DefinedWell.agrees {r : Resource} (h : s.DefinedWell x r) : r.kind.Agrees [] := by
  rcases h.kind with ⟨sh, e⟩ | ⟨d, e⟩ <;> rw [e] <;> rfl

theorem step_assignedLaw (h : step s = .next t) (pool : s.PoolLaw) (table : s.TableLaw) (law : s.AssignedLaw) :
    t.AssignedLaw := by
  have consistent := State.Consistent.of_laws pool table law
  cases step_event h with
  | keeps T a => exact (a.consistent (consistent.congr rfl (fun _ _ => rfl) rfl)).assignedLaw
  | redefines x v a =>
    have none := table.setup a.setup
    have noItems : ∀ p h, (s.slot p h).items = [] := fun p h => List.eq_nil_iff_forall_not_mem.mpr fun i hi => by
      obtain ⟨c, hc, -⟩ := table.items p h i hi
      rw [none] at hc; cases hc
    refine (State.Consistent.of_noClaims (a.claims.trans none) (fun p h => ?_) fun y k hk => ?_).assignedLaw
    · simpa [State.slot, a.slots] using noItems p h
    · rw [a.kindOf] at hk
      split at hk
      · obtain ⟨r, rfl, rfl⟩ := Option.map_eq_some_iff.mp hk
        exact (a.good r rfl).agrees
      · have := law.agrees y k hk
        rwa [show s.assigned y = [] by simp [State.assigned, none]] at this
  | resets a =>
    refine (State.Consistent.of_noClaims a.claims (fun p h => by rw [a.slot]; rfl) fun y k hk => ?_).assignedLaw
    rw [a.kindOf] at hk; cases hk

/-! ### The guard law -/

variable {since : Time} {again : Prop}

theorem LineState.Guards.later {st : LineState} {ph : Phase} {g now now' : Nat} (h : st.Guards ph since g now)
    (hn : now ≤ now') : st.Guards ph since g now' := by
  cases st with
  | vacant | verify => exact Nat.le_trans h hn
  | cooling | guard =>
    cases ph with
    | quiet => exact Nat.le_trans h hn
    | guard | verify | engage | watch => exact h
  | engage | held | faulted => cases ph <;> exact h

theorem Kind.KeepsGuard.later {reported : Prop} {now now' : Time} {k : Kind} (h : k.KeepsGuard again reported since now)
    (hn : now ≤ now') : k.KeepsGuard again reported since now' := by
  cases k with
  | token => trivial
  | line d st lu =>
    exact h.imp (fun ⟨hg, hr⟩ => ⟨hg.later hn, fun r => (hr r).trans hn⟩) fun ⟨hst, ha⟩ => ⟨hst, fun r => (ha r).trans hn⟩

theorem State.GuardedSince.keepsGuard {k : Kind} (h : s.GuardedSince x since) (hk : s.kindOf x = some k) :
    k.KeepsGuard again (s.GuardReported x) since s.now := by
  cases k with
  | token => trivial
  | line d st lu =>
    obtain ⟨hg, hr⟩ := h.2 d st lu hk
    exact .inl ⟨hg, fun ⟨r, hm, hx, hkind, hc⟩ => hr r hm hx hkind hc⟩

/-- A resource whose kind part keeps the guard is guarded, or drives a pattern again. -/
theorem State.guardedSince_or_drives (hle : since ≤ t.now)
    (h : ∀ k, t.kindOf x = some k → k.KeepsGuard again (t.GuardReported x) since t.now) : t.GuardedSince x since
    ∨ ∃ d st lu, t.kindOf x = some (.line d st lu) ∧ (st = .engage ∨ st = .held) ∧ (again → since + d.guard.toNat ≤ t.now) := by
  by_cases hd : ∃ d st lu, t.kindOf x = some (.line d st lu) ∧ (st = .engage ∨ st = .held) ∧ (again → since + d.guard.toNat ≤ t.now)
  · exact .inr hd
  · refine .inl ⟨hle, fun d st lu hk => ?_⟩
    obtain ⟨hg, hr⟩ := (h _ hk).resolve_right fun ⟨hst, ha⟩ => hd ⟨d, st, lu, hk, hst, ha⟩
    exact ⟨hg, fun r hm hx hkind hc => hr ⟨r, hm, hx, hkind, hc⟩⟩

/-- While the laws are kept, a resource that keeps its guard at the moment of the event keeps it after. -/
theorem State.KeepsLaws.guardedSince_or_drives {T : Time} (a : (s.passTo T).KeepsLaws t) (hle : since ≤ (s.passTo T).now)
    (h : ∀ k, s.kindOf x = some k → k.KeepsGuard again (s.GuardReported x) since (s.passTo T).now) : t.GuardedSince x since
    ∨ ∃ d st lu, t.kindOf x = some (.line d st lu) ∧ (st = .engage ∨ st = .held) ∧ (again → since + d.guard.toNat ≤ t.now) := by
  refine State.guardedSince_or_drives (a.lines.now ▸ hle) fun k' hk' => ?_
  obtain ⟨k, hk, passes⟩ := a.lines.kindOf hk'
  rw [a.lines.now]
  exact passes.guard again since hle (h k hk)

theorem State.drives_iff : s.drives x = true ↔ ∃ d st lu, s.kindOf x = some (.line d st lu) ∧ (st = .engage ∨ st = .held) := by
  unfold State.drives
  constructor
  · intro h
    split at h
    · next d lu e => exact ⟨d, _, lu, e, .inl rfl⟩
    · next d lu e => exact ⟨d, _, lu, e, .inr rfl⟩
    · cases h
  · rintro ⟨d, st, lu, e, rfl | rfl⟩ <;> rw [e]

/-- A resource that has just been defined, or erased, is guarded since any moment (R14). -/
theorem State.Redefines.guardedSince {v : Option Resource} (a : s.Redefines t x v) (hle : since ≤ t.now) :
    t.GuardedSince x since := by
  refine ⟨hle, fun d st lu hk => ⟨?_, fun r hm hx hkind hc => ?_⟩⟩
  · rw [a.kindOf, if_pos rfl] at hk
    obtain ⟨r, hr, hrk⟩ := Option.map_eq_some_iff.mp hk
    rcases (a.good r hr).kind with ⟨sh, e⟩ | ⟨d', e⟩ <;> rw [e] at hrk <;> cases hrk
    exact Nat.add_le_add_right (a.now ▸ hle) _
  · exact absurd rfl (a.reports x ⟨r, hm, hx, hkind, hc⟩).1

/-- A step in which a resource ceases to drive leaves it guarded (R82). -/
theorem step_guards (h : step s = .next t) (hs : s.drives x = true) (ht : t.drives x = false) : t.GuardedSince x t.now := by
  cases step_event h with
  | keeps T a =>
    rw [a.lines.now]
    obtain ⟨d, st, lu, hk, hst⟩ := State.drives_iff.mp hs
    refine (a.guardedSince_or_drives (again := False) (le_refl _) fun k hk' => ?_).resolve_right ?_
    · rw [hk] at hk'; cases hk'
      exact .inr ⟨hst, False.elim⟩
    · rintro ⟨d, st, lu, hk', hst', -⟩
      rw [State.drives_iff.mpr ⟨d, st, lu, hk', hst'⟩] at ht
      cases ht
  | redefines y v a =>
    by_cases e : y = x
    · subst e; exact a.guardedSince (le_refl _)
    · have : t.drives x = s.drives x := by simp [State.drives, a.kindOf, e]
      rw [this, hs] at ht; cases ht
  | resets a => exact ⟨le_refl _, fun d st lu hk => by rw [a.kindOf] at hk; cases hk⟩

/-- A step keeps the guard of a resource, or finds its interval passed and the resource driving again (R82). -/
theorem step_keeps_guard (h : step s = .next t) (hg : s.GuardedSince x since) : t.GuardedSince x since
    ∨ ∃ d st lu, t.kindOf x = some (.line d st lu) ∧ (st = .engage ∨ st = .held) ∧ since + d.guard.toNat ≤ t.now := by
  cases step_event h with
  | keeps T a =>
    have later : s.now ≤ (s.passTo T).now := Nat.le_max_left ..
    simpa using a.guardedSince_or_drives (again := True) (hg.1.trans later) fun k hk => (hg.keepsGuard hk).later later
  | redefines y v a =>
    have hle : since ≤ t.now := a.now ▸ hg.1
    by_cases e : y = x
    · subst e; exact .inl (a.guardedSince hle)
    · refine .inl ⟨hle, fun d st lu hk => ?_⟩
      rw [a.kindOf, if_neg e] at hk
      obtain ⟨hgu, hr⟩ := hg.keepsGuard (again := False) hk |>.resolve_right fun ⟨hst, _⟩ => by
        have := (hg.2 d st lu hk).1
        rcases hst with rfl | rfl <;> exact this
      rw [a.now]
      exact ⟨hgu, fun r hm hx hkind hc => hr (a.reports x ⟨r, hm, hx, hkind, hc⟩).2⟩
  | resets a => exact .inl ⟨a.now ▸ hg.1, fun d st lu hk => by rw [a.kindOf] at hk; cases hk⟩
end

/-! ### The obligations -/

/-- Settles O56: every step is an event (`step_event`), and no event breaks the laws of the lines. -/
theorem stepsKeepTheLineLaws : Obligations.StepsKeepTheLineLaws :=
  ⟨fun _ _ law h => step_driveLaw h law, fun _ _ law h => step_definitionLaw h law⟩

/-- Settles O57: every step is an event (`step_event`), and every event keeps claims, slots and resources in agreement. -/
theorem stepsKeepTheAssignedLaw : Obligations.StepsKeepTheAssignedLaw :=
  fun _ _ pool _ table law h => step_assignedLaw h pool table law

/-- Settles O59: every step is an event (`step_event`), and every event keeps the guard of each resource. -/
theorem guardIntervalsAreKept : Obligations.GuardIntervalsAreKept :=
  fun _ _ _ h => ⟨fun _ hs ht => step_guards h hs ht, fun _ hg => step_keeps_guard h hg⟩

end Sys2Proof.Machine
end

section
/-! ## Line levels and the pin reset -/

namespace Sys2Proof.Machine

/-! ### The level of a line output -/

section
variable {s : State} {n : LineNo}

/-- The bit of line `n` in a pattern that a group of first line `first` applies (R3). -/
def levelOf (b : Byte) (first n : Nat) : LineLevel := if b.getLsbD (n - first) then .high else .low

theorem State.drives_eq_some {x : ResNo} {v : LineLevel} :
    ((s.resource x).bind fun r => r.drives n) = some v ↔ ∃ d st lu, s.kindOf x = some (.line d st lu)
      ∧ d.covers n = true ∧ v = levelOf (d.pattern lu.applied) d.firstLine.toNat n := by
  cases hr : s.resource x with
  | none => simp [State.kindOf, hr]
  | some r =>
    have hk : s.kindOf x = some r.kind := by simp [State.kindOf, hr]
    rw [hk, Option.bind_some, Resource.drives]
    cases hkind : r.kind with
    | token sh st => simp
    | line d st lu =>
      by_cases hc : d.covers n = true
      · simp only [hc, if_true, Option.some.injEq, Kind.line.injEq]
        constructor
        · rintro rfl; exact ⟨d, st, lu, ⟨rfl, rfl, rfl⟩, hc, rfl⟩
        · rintro ⟨d, st, lu, ⟨rfl, rfl, rfl⟩, -, rfl⟩; rfl
      · simp [hc]

/-- A line that no group covers is high impedance (R3). -/
theorem State.lineLevel_uncovered (h : ∀ x d, s.lineDef x = some d → d.covers n.val = false) :
    s.lineLevel n = .highImpedance := by
  have undriven : ((List.finRange 64).findSome? fun x => (s.resource x).bind fun r => r.drives n) = none := by
    refine List.findSome?_eq_none_iff.mpr fun x _ => Option.eq_none_iff_forall_ne_some.mpr fun v hv => ?_
    obtain ⟨d, st, lu, hk, hc, -⟩ := State.drives_eq_some.mp hv
    have := h x d (by rw [State.lineDef_eq_kindOf, hk]; rfl)
    rw [hc] at this; cases this
  rw [State.lineLevel, undriven]; rfl

/-- A line of a group carries its bit of the pattern that the resource applies (R75): no other group covers it (R3). -/
theorem State.lineLevel_covered (law : s.DefinitionLaw) {x : ResNo} {d : LineDef} {st : LineState} {lu : PhaseRecord}
    (hk : s.kindOf x = some (.line d st lu)) (hc : d.covers n.val = true) :
    s.lineLevel n = levelOf (d.pattern lu.applied) d.firstLine.toNat n := by
  have driven := State.drives_eq_some.mpr ⟨d, st, lu, hk, hc, rfl⟩
  rw [State.lineLevel]
  cases h : (List.finRange 64).findSome? fun x => (s.resource x).bind fun r => r.drives n with
  | none =>
    have := List.findSome?_eq_none_iff.mp h x (List.mem_finRange x)
    rw [driven] at this; cases this
  | some v =>
    obtain ⟨y, -, hy⟩ := List.exists_of_findSome?_eq_some h
    have same : y = x := by
      by_contra hne
      obtain ⟨e, st', lu', hk', hc', -⟩ := State.drives_eq_some.mp hy
      have := law.lines y x e d hne (by rw [State.lineDef_eq_kindOf, hk']; rfl) (by rw [State.lineDef_eq_kindOf, hk]; rfl)
        n.val hc'
      rw [hc] at this; cases this
    rw [same, driven] at hy
    exact (Option.some.inj hy).symm

/-- Settles O49: a line is driven by the one group that covers it, and by none where no group does. -/
theorem lineLevelsFollowTheGroups : Obligations.LineLevelsFollowTheGroups := by
  intro s n
  refine ⟨State.lineLevel_uncovered, fun law x d st lu hk i hi hn => ?_⟩
  have hc : d.covers n.val = true := by
    rw [LineDef.covers, decide_eq_true_eq]
    omega
  have level := State.lineLevel_covered law hk hc
  rw [hn, levelOf, Nat.add_sub_cancel_left] at level
  exact ⟨fun ha => by rw [level, ha]; rfl, fun k ha => by rw [level, ha]; rfl⟩
end

/-! ### The pin reset -/

section
variable (line : RxLine) (now : Time) (cf : Vector InputFilter 16) (sv : Vector InputFilter 6) (ls : Vector RxLine 6)
  (q : List Instr)

/-- No character is on the line of a port that has just been reset: TXDn is at mark (R160). -/
theorem PortInterface.txMark_reset (m : Moment) : (PortInterface.reset line).txMark m = true := rfl

@[simp] theorem State.resource_afterReset (x : ResNo) : (State.afterReset now cf sv ls q).resource x = none := by
  simp [State.afterReset, State.resource]

@[simp] theorem State.slot_afterReset (p : Port) (h : Handle) : (State.afterReset now cf sv ls q).slot p h = .free := by
  simp [State.afterReset, State.slot]

@[simp] theorem State.session_afterReset (p : Port) :
    (State.afterReset now cf sv ls q).session p = { incarnation := 0, state := .idle } := by
  simp [State.afterReset, State.session]

@[simp] theorem State.queue_afterReset (p : Port) :
    (State.afterReset now cf sv ls q).queue p = { entries := [], nextSeq := 1, incarnation := 0 } := by
  simp [State.afterReset, State.queue]

@[simp] theorem State.port_afterReset (p : Port) :
    (State.afterReset now cf sv ls q).port p = PortInterface.reset ls[p] := by
  simp [State.afterReset, State.port]

theorem State.lineLevel_afterReset (n : LineNo) : (State.afterReset now cf sv ls q).lineLevel n = .highImpedance :=
  State.lineLevel_uncovered fun x d hd => by simp [State.lineDef] at hd

theorem State.txd_afterReset (p : Port) : (State.afterReset now cf sv ls q).txd p = .high := by
  rw [State.txd, State.port_afterReset, PortInterface.txMark_reset]; rfl

theorem State.attention_afterReset (p : Port) : (State.afterReset now cf sv ls q).attention p = false := by
  simp [State.attention, State.isOpen, SessionState.isOpen]
end

/-- Settles O4: the fields of `State.afterReset`, the input filters and receive lines being timed from the reset. -/
theorem pinResetState : Obligations.PinResetState := by
  intro s
  refine ⟨_, rfl, rfl, rfl, fun _ _ => State.slot_afterReset .., rfl, rfl, rfl, rfl,
    fun x => ⟨State.resource_afterReset .., rfl, rfl⟩, fun n => State.lineLevel_afterReset .., fun c => ?_, fun p => ?_,
    fun p => State.session_afterReset .., fun p => ⟨State.queue_afterReset .., State.attention_afterReset ..⟩,
    rfl, rfl, rfl, rfl, rfl, fun p => ?_, rfl, rfl, rfl, rfl, rfl, rfl⟩
  · simp [State.afterReset, InputFilter.atReset]
  · simp [State.afterReset, InputFilter.atReset]
  · rw [State.port_afterReset]
    refine ⟨rfl, rfl, rfl, rfl, rfl, rfl, rfl, rfl, rfl, rfl, rfl, rfl, rfl, State.txd_afterReset .., fun h => ?_,
      fun since b h => ?_⟩ <;>
    · have line : s.ports[p.val].line = _ := h
      simp [PortInterface.reset, line, RxLine.atReset]

end Sys2Proof.Machine
end

section
/-! ## DEFINE and UNDEFINE -/

namespace Sys2Proof.Machine

/-! ### Lists of checks -/

@[simp] theorem Verdict.checked_nil (go : Verdict) : Verdict.checked [] go = go := rfl

@[simp] theorem Verdict.checked_cons (b : Bool) (st : Status) (cs : List (Bool × Status)) (go : Verdict) :
    Verdict.checked ((b, st) :: cs) go = if b = true then .refused st else Verdict.checked cs go := by
  cases b <;> rfl

theorem Verdict.checked_append {cs ds : List (Bool × Status)} {go : Verdict} (h : firstRefusal cs = none) :
    Verdict.checked (cs ++ ds) go = Verdict.checked ds go := by
  unfold Verdict.checked
  rw [firstRefusal_append, h]
  rfl

theorem resOf_eq {b : Byte} {x : ResNo} (h : b.toNat = x.val) : resOf b = x := by
  apply Fin.ext
  simp [resOf, Fin.ofNat, h, Nat.mod_eq_of_lt x.isLt]

theorem Word16.toNat_ofBytes (lo hi : Byte) : (Word16.ofBytes lo hi).toNat = lo.toNat + 256 * hi.toNat := by
  have h := Nat.shiftLeft_add_eq_or_of_lt (i := 8) lo.isLt hi.toNat
  have hl := lo.isLt
  have hh := hi.isLt
  have e1 : lo.toNat % 2 ^ 16 = lo.toNat := Nat.mod_eq_of_lt (by omega)
  have e2 : hi.toNat % 2 ^ 16 = hi.toNat := Nat.mod_eq_of_lt (by omega)
  have e3 : hi.toNat <<< 8 % 2 ^ 16 = hi.toNat <<< 8 := Nat.mod_eq_of_lt (by rw [Nat.shiftLeft_eq]; omega)
  rw [Word16.ofBytes, BitVec.toNat_or, BitVec.toNat_shiftLeft, BitVec.toNat_setWidth, BitVec.toNat_setWidth, e1, e2, e3,
    Nat.or_comm, ← h, Nat.shiftLeft_eq]
  omega

section
variable {s : State} {p : Port} {f : Frame} {x : ResNo}

/-! ### The checks -/

@[simp] theorem State.taking_lineConflict (k : RequestKind) (d : LineDef) :
    (s.taking k p f).lineConflict x d = s.lineConflict x d := by simp [State.lineConflict]

@[simp] theorem State.taking_confirmConflict (k : RequestKind) (d : LineDef) :
    (s.taking k p f).confirmConflict x d = s.confirmConflict x d := by simp [State.confirmConflict]

/-- What a DEFINE comes to once its session, permission and mode have been checked (R11, R12). -/
theorem State.OpenFor.define_verdict (ho : s.OpenFor p f) (hp : p = s.supervisor) (hm : s.mode = .setup) :
    RequestKind.define.verdict p f (s.taking .define p f) = .checked
      [(f.badDefine, .badParameter), ((s.kindOf (resOf (f.byte 0))).any fun k => !k.isVacant, .resourceBusy),
       (f.isLineForm && s.lineConflict (resOf (f.byte 0)) f.lineDef, .lineConflict),
       (f.isLineForm && s.confirmConflict (resOf (f.byte 0)) f.lineDef, .confirmConflict)]
      (.executed .ok [] (((s.taking .define p f).setResource (resOf (f.byte 0)) (some (f.defined s.now))).staleReports
        (resOf (f.byte 0)))) := by
  show defineVerdict p f (s.taking .define p f) = _
  have hc := State.supervisorChecks_open (ho.taking (k := .define)) (by simpa using hp)
  rw [defineVerdict, Verdict.checked_append hc]
  simp [State.modeCheck, hm]

/-- What an UNDEFINE comes to once its session, permission and mode have been checked (R16). -/
theorem State.OpenFor.undefine_verdict (ho : s.OpenFor p f) (hp : p = s.supervisor) (hm : s.mode = .setup) :
    RequestKind.undefine.verdict p f (s.taking .undefine p f) = .checked (s.resourceChecks (f.byte 0))
      (.executed .ok [] (((s.taking .undefine p f).setResource (resOf (f.byte 0)) none).staleReports
        (resOf (f.byte 0)))) := by
  show undefineVerdict p f (s.taking .undefine p f) = _
  have hc := State.supervisorChecks_open (ho.taking (k := .undefine)) (by simpa using hp)
  rw [undefineVerdict, Verdict.checked_append hc]
  simp [State.modeCheck, hm, State.resourceChecks]

theorem Frame.isLineForm_of_token (hb : f.badDefine = false) (h : f.byte 1 = 0) : f.isLineForm = false := by
  obtain ⟨-, ⟨-, hf⟩ | ⟨h1, -⟩⟩ := Frame.goodDefine hb
  · exact hf
  · rw [h] at h1; exact absurd h1 (by decide)

theorem Frame.isLineForm_of_line (hb : f.badDefine = false) (h : f.byte 1 = 1) : f.isLineForm = true := by
  obtain ⟨-, ⟨h0, -⟩ | ⟨-, hf, -⟩⟩ := Frame.goodDefine hb
  · rw [h] at h0; exact absurd h0 (by decide)
  · exact hf

theorem State.notBusy (h : ∀ k, s.kindOf x = some k → k.isVacant = true) : ((s.kindOf x).any fun k => !k.isVacant) = false := by
  cases hk : s.kindOf x with
  | none => rfl
  | some k => simp [h k hk]

/-- A DEFINE that passes the checks is carried out (R12, R13, R14). -/
theorem State.Offered.define_executed (h : s.Offered .define p f) (ho : s.OpenFor p f) (hp : p = s.supervisor)
    (hm : s.mode = .setup) (hx : (f.byte 0).toNat = x.val) (hb : f.badDefine = false)
    (hv : ∀ k, s.kindOf x = some k → k.isVacant = true) (h1 : (f.isLineForm && s.lineConflict x f.lineDef) = false)
    (h2 : (f.isLineForm && s.confirmConflict x f.lineDef) = false) :
    let u := ((((s.taking .define p f).setResource x (some (f.defined s.now))).staleReports x).endOfServe
      RequestKind.define.owner).place p f .ok [] true
    exec (.define p) s = .next u ∧ s.Answered u p f .ok [] := by
  have verdict := ho.define_verdict hp hm
  simp only [resOf_eq hx, Verdict.checked_cons, hb, State.notBusy hv, h1, h2, Bool.false_eq_true, if_false,
    Verdict.checked_nil] at verdict
  obtain ⟨hexec, hans, -⟩ := h.executed verdict
  exact ⟨hexec, hans⟩

/-- A group shares a line with another where the groups of widths of at least 1 overlap (R3, R12). -/
theorem LineDef.covers_of_meets {d e : LineDef} (hd : 1 ≤ d.width.toNat) (he : 1 ≤ e.width.toNat) (h : d.meets e = true) :
    ∃ n, d.covers n = true ∧ e.covers n = true := by
  simp only [LineDef.meets, LineDef.covers, decide_eq_true_eq] at *
  refine ⟨max d.firstLine.toNat e.firstLine.toNat, ?_, ?_⟩ <;> omega

/-- Settles O34: the checks of a DEFINE stand in the order of R12, and each says what it names. -/
theorem defineChecksInOrder : Obligations.DefineChecksInOrder := by
  intro p x f s h ho hp hm hx hb
  have verdict := ho.define_verdict hp hm
  simp only [resOf_eq hx, Verdict.checked_cons, Verdict.checked_nil, hb, Bool.false_eq_true, if_false] at verdict
  have refuse : ∀ st, RequestKind.define.verdict p f (s.taking .define p f) = .refused st → st ≠ .sessionSevered →
      exec (.define p) s = .next (((s.taking .define p f).endOfEvent).place p f st [] false) := fun st hv hn =>
    h.refused hv hn
  refine ⟨fun k hk hv => refuse _ ?_ nofun, fun hv => ⟨fun h0 => ?_, fun h1 => ⟨?_, fun apart widths => ⟨?_, fun unbound => ?_⟩⟩⟩⟩
  · rw [verdict, if_pos (by simp [hk, hv])]
  · exact ⟨_, h.define_executed ho hp hm hx hb hv (by simp [Frame.isLineForm_of_token hb h0])
      (by simp [Frame.isLineForm_of_token hb h0])⟩
  all_goals
    have form := Frame.isLineForm_of_line hb h1
    simp only [State.notBusy hv, form, Bool.true_and, Bool.false_eq_true, if_false] at verdict
  · intro y d n hy hd hn hfn
    refine refuse _ ?_ nofun
    rw [verdict, if_pos (State.lineConflict_iff.mpr ⟨y, d, hy, hd, LineDef.meets_of_covers hfn hn⟩)]
  all_goals
    have noConflict : s.lineConflict x f.lineDef = false := by
      rw [← Bool.not_eq_true, State.lineConflict_iff]
      rintro ⟨y, e, hy, he, hmeets⟩
      obtain ⟨-, ⟨h0, -⟩ | ⟨-, -, hf, hc⟩⟩ := Frame.goodDefine hb
      · rw [h1] at h0; exact absurd h0 (by decide)
      · obtain ⟨n, hfn, hen⟩ := LineDef.covers_of_meets (Frame.lineDef_valid hf hc).width.1 (widths y e he) hmeets
        rw [apart y e n hy he hen] at hfn
        cases hfn
  · intro y d b c hy hd hb' hc hi
    refine refuse _ ?_ nofun
    rw [verdict, noConflict, if_neg Bool.false_ne_true,
      if_pos (State.confirmConflict_iff.mpr ⟨c, y, d, b, hc, hy, hd, hb', hi⟩)]
  · have unshared : s.confirmConflict x f.lineDef = false := by
      rw [← Bool.not_eq_true, State.confirmConflict_iff]
      rintro ⟨c, y, d, b, hc, hy, hd, hb', hi⟩
      exact unbound y d b c hy hd hb' hc hi
    exact ⟨_, h.define_executed ho hp hm hx hb hv (by simp [noConflict]) (by simp [unshared])⟩

/-! ### What is written -/

/-- What a carried out DEFINE or UNDEFINE of the request kind `k` leaves of the part beside the resource `x` (R13, R14, R16,
R76). -/
theorem State.redefine_leaves (k : RequestKind) (hk : k.owner = .claimTable) (v : Option Resource) (body : List Byte) :
    let u := ((((s.taking k p f).setResource x v).staleReports x).endOfServe k.owner).place p f .ok body true
    (∀ y, y ≠ x → u.resource y = s.resource y) ∧ (∀ y ∈ u.lineReports, y.resource = x → y.current = false)
    ∧ u.claims = s.claims ∧ u.slots = s.slots ∧ u.queues = s.queues
    ∧ s.SameSupervision u ∧ s.SameInputs u ∧ s.SameOtherPorts u p ∧ s.SameEvents u := by
  have stale : ∀ y ∈ (((s.taking k p f).setResource x v).staleReports x).lineReports, y.resource = x → y.current = false := by
    intro y hy e
    obtain ⟨r, -, rfl⟩ := List.mem_map.mp hy
    by_cases hr : r.resource = x <;> simp_all
  refine ⟨fun y hy => ?other, fun y hy => stale y ?report, ?_, ?_, ?_, ⟨?_, ?_, ?_, ?_, ?_⟩, ⟨?_, ?_, ?_, ?_⟩,
    fun q hq => ⟨?session, ?_, ?port⟩, ⟨?_, ?_⟩⟩
  case other => simp [hk, State.endOfServe, State.staleReports, Ne.symm hy]
  case report => simpa [hk, State.endOfServe] using hy
  case session => simp [hk, State.endOfServe, State.staleReports, State.taking_session_other s k p f q hq]
  case port => simp [hk, State.endOfServe, State.staleReports, State.place_port, State.taking_port, Ne.symm hq]
  all_goals simp [hk, State.endOfServe, State.staleReports]

/-- The resource itself, after a carried out DEFINE or UNDEFINE. -/
theorem State.redefine_resource (k : RequestKind) (v : Option Resource) (body : List Byte) :
    (((((s.taking k p f).setResource x v).staleReports x).endOfServe k.owner).place p f .ok body true).resource x = v := by
  rw [State.resource_place]
  cases k.owner <;> simp [State.endOfServe, State.staleReports]

/-- An UNDEFINE of a defined resource is carried out (R16). -/
theorem State.Offered.undefine_executed (h : s.Offered .undefine p f) (ho : s.OpenFor p f) (hp : p = s.supervisor)
    (hm : s.mode = .setup) (hx : (f.byte 0).toNat = x.val) (hd : (s.resource x).isSome = true) :
    let u := ((((s.taking .undefine p f).setResource x none).staleReports x).endOfServe
      RequestKind.undefine.owner).place p f .ok [] true
    exec (.undefine p) s = .next u ∧ s.Answered u p f .ok [] := by
  have verdict := ho.undefine_verdict hp hm
  have inRange : ¬ 63 < (f.byte 0).toNat := by omega
  have defined : ¬ (s.resource x).isNone = true := by simpa using Option.isSome_iff_ne_none.mp hd
  simp only [State.resourceChecks, resOf_eq hx, Verdict.checked_cons, Verdict.checked_nil, decide_eq_true_eq, inRange,
    defined, if_false] at verdict
  obtain ⟨hexec, hans, -⟩ := h.executed verdict
  exact ⟨hexec, hans⟩

theorem State.Offered.undefine_checks (h : s.Offered .undefine p f) (ho : s.OpenFor p f) (hp : p = s.supervisor)
    (hm : s.mode = .setup) : s.ChecksTheResource .undefine p f := by
  have verdict := ho.undefine_verdict hp hm
  simp only [State.resourceChecks, Verdict.checked_cons, Verdict.checked_nil, decide_eq_true_eq] at verdict
  refine ⟨fun hbig => h.refused (by rw [verdict, if_pos hbig]) nofun, fun x hx hnone => h.refused ?_ nofun⟩
  rw [verdict, resOf_eq hx, hnone, if_neg (by omega)]; rfl

theorem State.Offered.define_badParameter (h : s.Offered .define p f) (ho : s.OpenFor p f) (hp : p = s.supervisor)
    (hm : s.mode = .setup) (hb : f.badDefine = true) :
    exec (.define p) s = .next (((s.taking .define p f).endOfEvent).place p f .badParameter [] false) := by
  have verdict := ho.define_verdict hp hm
  rw [Verdict.checked_cons, if_pos hb] at verdict
  exact h.refused verdict nofun

theorem Frame.confirmBinding_of_input {c : ConfNo} (h : (f.byte 20).toNat = c.val) :
    f.lineDef.confirm = some { input := c, engagedHigh := f.byte 21 == 1, timeout := f.word 22 } := by
  have bound : f.byte 20 ≠ 0xFF := fun e => by
    have := c.isLt
    rw [← h, e] at this
    exact absurd this (by decide)
  have input : Fin.ofNat 16 (f.byte 20).toNat = c := Fin.ext (by simp [Fin.ofNat, h, Nat.mod_eq_of_lt c.isLt])
  simp only [Frame.lineDef, Frame.confirmBinding, if_neg bound, input]

/-- Settles O33: the record of `Frame.defined` is written whole, its fields stand at the offsets of R188, and
`Frame.badDefine_iff` says which definitions R11 refuses. -/
theorem definitionsAreWrittenWhole : Obligations.DefinitionsAreWrittenWhole := by
  refine ⟨fun p x f s ho hp hm hx => ⟨fun h hb hv hc => ?_, fun h hd => ?_⟩, fun f => ?_,
    fun p f s ho hp hm => ⟨fun h hb => h.define_badParameter ho hp hm hb, fun h => h.undefine_checks ho hp hm⟩, fun f => ?_⟩
  · have free : (f.isLineForm && s.lineConflict x f.lineDef) = false
        ∧ (f.isLineForm && s.confirmConflict x f.lineDef) = false := by
      cases hf : f.isLineForm with
      | false => exact ⟨rfl, rfl⟩
      | true => exact hc hf
    obtain ⟨hexec, hans⟩ := h.define_executed ho hp hm hx hb hv free.1 free.2
    refine ⟨_, _, hexec, hans, State.redefine_resource .., rfl, rfl, rfl, rfl, fun h0 => ?_, fun h1 => ?_,
      State.redefine_leaves .define rfl _ _⟩
    · simp [Frame.defined, Frame.isLineForm_of_token hb h0]
    · simp only [Frame.defined, Frame.isLineForm_of_line hb h1, if_true]; rfl
  · obtain ⟨hexec, hans⟩ := h.undefine_executed ho hp hm hx hd
    exact ⟨_, hexec, hans, State.redefine_resource .., State.redefine_leaves .undefine rfl _ _⟩
  · refine ⟨rfl, rfl, rfl, f.lineDef_drive, rfl, fun h => ?_, fun c h => Frame.confirmBinding_of_input h,
      fun i => ⟨rfl, Word16.toNat_ofBytes _ _⟩⟩
    simp [Frame.lineDef, Frame.confirmBinding, h]
  · rw [Frame.badDefine_iff, Frame.badFields_iff, Frame.badConfirm_iff]
    simp only [or_assoc]
end
end Sys2Proof.Machine
end

section
/-! ## RESTART -/

namespace Sys2Proof.Machine

/-! ### The sessions and ports that end -/

/-- Nothing but session records, notice queues and Port Interfaces changes. -/
structure State.OnlyPorts (s t : State) : Prop where
  table : s.SameClaimTable t
  supervision : s.SameSupervision t
  inputs : s.SameInputs t
  served : t.servedCT = s.servedCT ∧ t.servedSC = s.servedSC ∧ t.servedNS = s.servedNS ∧ t.servedSV = s.servedSV
  events : s.SameEvents t
  drainReports : t.drainReports = s.drainReports

theorem State.OnlyPorts.refl (s : State) : s.OnlyPorts s :=
  ⟨⟨rfl, rfl, rfl, rfl⟩, .refl s, .refl s, ⟨rfl, rfl, rfl, rfl⟩, ⟨rfl, rfl⟩, rfl⟩

theorem State.OnlyPorts.trans {s t u : State} (a : s.OnlyPorts t) (b : t.OnlyPorts u) : s.OnlyPorts u := by
  obtain ⟨⟨hc, hs, hr, hl⟩, ⟨hm, hp, ht, hrec, hf⟩, hin, ⟨h1, h2, h3, h4⟩, ⟨ha, hlive⟩, hd⟩ := b
  exact ⟨⟨hc.trans a.table.claims, hs.trans a.table.slots, hr.trans a.table.resources, hl.trans a.table.lineReports⟩,
    ⟨hm.trans a.supervision.mode, hp.trans a.supervision.supervisor, ht.trans a.supervision.threshold,
      hrec.trans a.supervision.recovery, hf.trans a.supervision.filterTime⟩, a.inputs.trans hin,
    ⟨h1.trans a.served.1, h2.trans a.served.2.1, h3.trans a.served.2.2.1, h4.trans a.served.2.2.2⟩,
    ⟨ha.trans a.events.ackEvents, hlive.trans a.events.liveReports⟩, hd.trans a.drainReports⟩

/-- The fold of an operation on one port each: a record of a port is changed, once, where the port is listed. -/
theorem foldl_component {σ ι α : Type} [DecidableEq ι] {op : σ → ι → σ} {get : σ → ι → α} {change : ι → α → α}
    (step : ∀ u k q, get (op u k) q = if k = q then change q (get u q) else get u q)
    (again : ∀ q v, change q (change q v) = change q v) (xs : List ι) (u : σ) (q : ι) :
    get (xs.foldl op u) q = if q ∈ xs then change q (get u q) else get u q := by
  induction xs generalizing u with
  | nil => simp
  | cons x xs ih =>
    rw [List.foldl_cons, ih, step]
    by_cases e : x = q
    · subst e; by_cases hm : x ∈ xs <;> simp [hm, again]
    · simp [e, Ne.symm e]

section
variable (b s : State) (p q : Port) (x : ResNo)

/-- The session record of port `q` as RESTART leaves it, the event having begun in `b` (R126). -/
def State.restartedSession (v : Session) : Session :=
  match (b.session q).state.opened with
  | some o => { v with state := .severed (b.severReport q o .restart) }
  | none => v

/-- The notice queue of port `q` as RESTART leaves it (R142). -/
def State.restartedQueue (v : NoticeQueue) : NoticeQueue := if b.isOpen q then { v with entries := [] } else v

/-- The Port Interface of port `q` as RESTART leaves it (R120). -/
def State.restartedPort (v : PortInterface) : PortInterface :=
  if b.isOpen q then { v with cache := none, inbound := [] } else v

theorem State.opened_none_iff : (b.session q).state.opened = none ↔ b.isOpen q = false := by
  rw [State.isOpen, ← SessionState.opened_isSome]
  cases (b.session q).state.opened <;> simp

theorem State.isOpen_of_opened {o : OpenSession} (h : (b.session q).state.opened = some o) : b.isOpen q = true := by
  rw [State.isOpen, ← SessionState.opened_isSome, h]; rfl

theorem State.restartPort_open {o : OpenSession} (h : (b.session p).state.opened = some o) : State.restartPort b s p =
    ((s.setSessionState p (.severed (b.severReport p o .restart))).clearQueue p).dropFrames p := by
  simp only [State.restartPort, h]

theorem State.restartPort_closed (h : (b.session p).state.opened = none) : State.restartPort b s p = s := by
  simp only [State.restartPort, h]

theorem State.restartPort_session : (State.restartPort b s p).session q =
    if p = q then b.restartedSession q (s.session q) else s.session q := by
  cases h : (b.session p).state.opened with
  | none =>
    rw [State.restartPort_closed _ _ _ h]
    split
    · next e => subst e; simp [State.restartedSession, h]
    · rfl
  | some o =>
    rw [State.restartPort_open _ _ _ h]
    by_cases e : p = q
    · subst e; simp [State.restartedSession, h, State.dropFrames, State.clearQueue, State.setSessionState]
    · simp [e, State.dropFrames, State.clearQueue, State.setSessionState]

theorem State.restartPort_queue : (State.restartPort b s p).queue q =
    if p = q then b.restartedQueue q (s.queue q) else s.queue q := by
  cases h : (b.session p).state.opened with
  | none =>
    rw [State.restartPort_closed _ _ _ h]
    split
    · next e => subst e; simp [State.restartedQueue, (b.opened_none_iff p).mp h]
    · rfl
  | some o =>
    rw [State.restartPort_open _ _ _ h]
    by_cases e : p = q
    · subst e
      simp [State.restartedQueue, b.isOpen_of_opened p h, State.dropFrames, State.clearQueue, State.setSessionState]
    · simp [e, State.dropFrames, State.clearQueue, State.setSessionState]

theorem State.restartPort_port : (State.restartPort b s p).port q =
    if p = q then b.restartedPort q (s.port q) else s.port q := by
  cases h : (b.session p).state.opened with
  | none =>
    rw [State.restartPort_closed _ _ _ h]
    split
    · next e => subst e; simp [State.restartedPort, (b.opened_none_iff p).mp h]
    · rfl
  | some o =>
    rw [State.restartPort_open _ _ _ h]
    by_cases e : p = q
    · subst e
      simp [State.restartedPort, b.isOpen_of_opened p h, State.dropFrames, State.clearQueue, State.setSessionState]
    · simp [e, State.dropFrames, State.clearQueue, State.setSessionState]

theorem State.restartPort_onlyPorts : s.OnlyPorts (State.restartPort b s p) := by
  cases h : (b.session p).state.opened with
  | none => rw [State.restartPort_closed _ _ _ h]; exact .refl s
  | some o =>
    rw [State.restartPort_open _ _ _ h]
    exact ⟨⟨rfl, rfl, rfl, rfl⟩, ⟨rfl, rfl, rfl, rfl, rfl⟩, ⟨rfl, rfl, rfl, rfl⟩, ⟨rfl, rfl, rfl, rfl⟩, ⟨rfl, rfl⟩, rfl⟩

/-! ### The resources -/

/-- Nothing but resource records and Line Unit reports changes. -/
structure State.OnlyLines (s t : State) : Prop where
  outside : s.SameOutsideClaimTable t
  claims : t.claims = s.claims
  slots : t.slots = s.slots
  queues : t.queues = s.queues
  drainReports : t.drainReports = s.drainReports

theorem State.LineOrder.onlyLines {s t : State} {x : ResNo} (a : State.LineOrder x s t) : s.OnlyLines t :=
  ⟨a.outside, a.claims, a.slots, a.queues, a.drainReports⟩

theorem State.OnlyLines.trans {s t u : State} (a : s.OnlyLines t) (b : t.OnlyLines u) : s.OnlyLines u :=
  ⟨a.outside.trans b.outside, b.claims.trans a.claims, b.slots.trans a.slots, b.queues.trans a.queues,
    b.drainReports.trans a.drainReports⟩

theorem State.restartResource_onlyLines : s.OnlyLines (s.restartResource x) := by
  unfold State.restartResource
  split
  · next sh st h => exact (State.setToken_lineOrder s x sh st .vacant h).onlyLines
  · exact (State.cool_lineOrder s x).onlyLines
  · exact (State.LineOrder.refl x s).onlyLines

/-- A report that is current after the restart of a resource was made before it, about another LINE resource. -/
theorem State.restartResource_lineReports {y : LineReport} (hy : y ∈ (s.restartResource x).lineReports)
    (hc : y.current = true) : y ∈ s.lineReports ∧ (y.resource = x → s.isLineRes x = false) := by
  have stale : ∀ {t : State} {y : LineReport}, y ∈ (t.staleReports x).lineReports → y.current = true →
      y ∈ t.lineReports ∧ y.resource ≠ x := by
    intro t y hy hc
    obtain ⟨r, hr, rfl⟩ := List.mem_map.mp hy
    by_cases e : r.resource = x
    · simp [e] at hc
    · simp only [e, if_false] at hc ⊢
      exact ⟨hr, e⟩
  unfold State.restartResource at hy
  split at hy
  · next sh st h => exact ⟨hy, fun _ => by simp [State.isLineRes, h, Kind.isLine]⟩
  · have hy : y ∈ ((s.staleReports x).staleReports x).lineReports := hy
    obtain ⟨hm, hne⟩ := stale hy hc
    exact ⟨(stale hm hc).1, fun e => absurd e hne⟩
  · next h => exact ⟨hy, fun _ => by simp [State.isLineRes, h]⟩

theorem State.isLineRes_restartResource (y : ResNo) : (s.restartResource x).isLineRes y = s.isLineRes y := by
  unfold State.isLineRes State.kindOf
  rw [State.resource_restartResource]
  by_cases e : x = y
  · subst e
    rw [if_pos rfl]
    cases s.resource x with
    | none => rfl
    | some r => cases h : r.kind <;> simp [h, Kind.restarted, Kind.isLine]
  · rw [if_neg e]
end

theorem State.foldl_restartResource_onlyLines (xs : List ResNo) (s : State) : s.OnlyLines (xs.foldl State.restartResource s) := by
  induction xs generalizing s with
  | nil => exact (State.LineOrder.refl 0 s).onlyLines
  | cons x xs ih => exact (s.restartResource_onlyLines x).trans (ih _)

theorem State.foldl_restartResource_lineReports (xs : List ResNo) (s : State) {y : LineReport}
    (hy : y ∈ (xs.foldl State.restartResource s).lineReports) (hc : y.current = true) :
    y ∈ s.lineReports ∧ (y.resource ∈ xs → s.isLineRes y.resource = false) := by
  induction xs generalizing s with
  | nil => exact ⟨hy, nofun⟩
  | cons x xs ih =>
    obtain ⟨hm, hxs⟩ := ih (s.restartResource x) hy
    obtain ⟨hs, hx⟩ := s.restartResource_lineReports x hm hc
    refine ⟨hs, fun h => ?_⟩
    rcases List.mem_cons.mp h with e | h
    · rw [e]; exact hx e
    · rw [← s.isLineRes_restartResource x]; exact hxs h

/-! ### The event -/

section
variable (s : State) (m : DeviceMode) (q : Port)

@[simp] theorem State.changeMode_session : (s.changeMode m).session q = s.session q := rfl
@[simp] theorem State.changeMode_queue : (s.changeMode m).queue q = s.queue q := rfl
@[simp] theorem State.changeMode_port : (s.changeMode m).port q = s.port q := rfl
@[simp] theorem State.changeMode_claims : (s.changeMode m).claims = s.claims := rfl
@[simp] theorem State.changeMode_slot (h : Handle) : (s.changeMode m).slot q h = s.slot q h := rfl
@[simp] theorem State.changeMode_resource (x : ResNo) : (s.changeMode m).resource x = s.resource x := rfl
@[simp] theorem State.changeMode_lineReports : (s.changeMode m).lineReports = s.lineReports := rfl

theorem State.changeMode_drainReports : true ∉ (s.changeMode m).drainReports := by
  simp [State.changeMode]
end

/-- The state of RESTART once the open sessions have ended. -/
def State.ended (s : State) : State := (List.finRange 6).foldl (fun t p => s.restartPort t p) s

section
variable (s : State) (q : Port)

theorem State.ended_session : s.ended.session q = s.restartedSession q (s.session q) := by
  have again : ∀ q v, s.restartedSession q (s.restartedSession q v) = s.restartedSession q v := fun q v => by
    unfold State.restartedSession; cases (s.session q).state.opened <;> rfl
  rw [State.ended, foldl_component (get := State.session) (fun u k q => State.restartPort_session s u k q) again,
    if_pos (List.mem_finRange q)]

theorem State.ended_queue : s.ended.queue q = s.restartedQueue q (s.queue q) := by
  have again : ∀ q v, s.restartedQueue q (s.restartedQueue q v) = s.restartedQueue q v := fun q v => by
    unfold State.restartedQueue; cases s.isOpen q <;> rfl
  rw [State.ended, foldl_component (get := State.queue) (fun u k q => State.restartPort_queue s u k q) again,
    if_pos (List.mem_finRange q)]

theorem State.ended_port : s.ended.port q = s.restartedPort q (s.port q) := by
  have again : ∀ q v, s.restartedPort q (s.restartedPort q v) = s.restartedPort q v := fun q v => by
    unfold State.restartedPort; cases s.isOpen q <;> rfl
  rw [State.ended, foldl_component (get := State.port) (fun u k q => State.restartPort_port s u k q) again,
    if_pos (List.mem_finRange q)]

theorem State.ended_onlyPorts : s.OnlyPorts s.ended := by
  have fold : ∀ (xs : List Port) (u : State), s.OnlyPorts u → s.OnlyPorts (xs.foldl (fun t p => s.restartPort t p) u) := by
    intro xs
    induction xs with
    | nil => exact fun u a => a
    | cons x xs ih => exact fun u a => ih _ (a.trans (State.restartPort_onlyPorts s u x))
  exact fold _ s (.refl s)

/-- The state of RESTART once every resource has been set. -/
@[irreducible] def State.restarted : State := (List.finRange 64).foldl State.restartResource s.ended.cleared

theorem State.restarted_eq : s.restarted = (List.finRange 64).foldl State.restartResource s.ended.cleared := by
  unfold State.restarted
  rfl

theorem State.restartEvent_eq_restarted : s.restartEvent = s.restarted.changeMode .setup := by
  rw [State.restarted_eq]
  exact s.restartEvent_eq

theorem State.restarted_onlyLines : s.ended.cleared.OnlyLines s.restarted := by
  have fold := State.foldl_restartResource_onlyLines (List.finRange 64) s.ended.cleared
  rwa [← State.restarted_eq] at fold

theorem State.restartEvent_session : s.restartEvent.session q = s.restartedSession q (s.session q) := by
  rw [State.restartEvent_eq_restarted, State.changeMode_session, State.session, s.restarted_onlyLines.outside.sessions]
  exact s.ended_session q

theorem State.restartEvent_queue : s.restartEvent.queue q = s.restartedQueue q (s.queue q) := by
  rw [State.restartEvent_eq_restarted, State.changeMode_queue, State.queue, s.restarted_onlyLines.queues]
  exact s.ended_queue q

theorem State.restartEvent_port : s.restartEvent.port q = s.restartedPort q (s.port q) := by
  rw [State.restartEvent_eq_restarted, State.changeMode_port, State.port, s.restarted_onlyLines.outside.ports]
  exact s.ended_port q

theorem State.restartEvent_claims : s.restartEvent.claims = [] := by
  rw [State.restartEvent_eq_restarted, State.changeMode_claims, s.restarted_onlyLines.claims]
  rfl

theorem State.restartEvent_slot (k : Handle) : s.restartEvent.slot q k = .free := by
  rw [State.restartEvent_eq_restarted, State.changeMode_slot, State.slot, s.restarted_onlyLines.slots]
  exact State.cleared_slot ..

theorem State.ended_cleared_resource (x : ResNo) : s.ended.cleared.resource x = s.resource x :=
  congrArg (fun v => v[x]) s.ended_onlyPorts.table.resources

theorem State.restartEvent_resource (x : ResNo) :
    s.restartEvent.resource x = (s.resource x).map fun r => { r with kind := r.kind.restarted s.now } := by
  have now : s.ended.cleared.now = s.now := s.ended_onlyPorts.inputs.now
  rw [State.restartEvent_eq_restarted, State.changeMode_resource, State.restarted_eq, State.foldl_restartResource_resource,
    if_pos (List.mem_finRange x), now, State.ended_cleared_resource]

/-- After RESTART no report about a LINE resource is current (R76, R100). -/
theorem State.restartEvent_lineReports {y : LineReport} (hy : y ∈ s.restartEvent.lineReports)
    (hl : s.isLineRes y.resource = true) : y.current = false := by
  by_contra hc
  rw [State.restartEvent_eq_restarted, State.changeMode_lineReports, State.restarted_eq] at hy
  have fold := (State.foldl_restartResource_lineReports _ s.ended.cleared (y := y) hy (by simpa using hc)).2 (List.mem_finRange _)
  have same : s.ended.cleared.isLineRes y.resource = s.isLineRes y.resource := by
    simp only [State.isLineRes, State.kindOf, s.ended_cleared_resource y.resource]
  rw [same, hl] at fold
  cases fold

theorem State.restartEvent_drainReports : true ∉ s.restartEvent.drainReports := by
  rw [State.restartEvent_eq_restarted]
  exact s.restarted.changeMode_drainReports .setup

theorem State.restartEvent_mode : s.restartEvent.mode = .setup := by
  rw [State.restartEvent_eq_restarted]
  rfl

end

/-- What RESTART keeps (R155, R156). -/
structure State.RestartKeeps (s t : State) : Prop where
  supervisor : t.supervisor = s.supervisor
  threshold : t.threshold = s.threshold
  recovery : t.recovery = s.recovery
  filterTime : t.filterTime = s.filterTime
  servedCT : t.servedCT = s.servedCT
  servedSC : t.servedSC = s.servedSC
  servedNS : t.servedNS = s.servedNS
  servedSV : t.servedSV = s.servedSV
  inputs : s.SameInputs t
  events : s.SameEvents t

theorem State.RestartKeeps.trans {s t u : State} (a : s.RestartKeeps t) (b : t.RestartKeeps u) : s.RestartKeeps u where
  supervisor := b.supervisor.trans a.supervisor
  threshold := b.threshold.trans a.threshold
  recovery := b.recovery.trans a.recovery
  filterTime := b.filterTime.trans a.filterTime
  servedCT := b.servedCT.trans a.servedCT
  servedSC := b.servedSC.trans a.servedSC
  servedNS := b.servedNS.trans a.servedNS
  servedSV := b.servedSV.trans a.servedSV
  inputs := a.inputs.trans b.inputs
  events := ⟨b.events.ackEvents.trans a.events.ackEvents, b.events.liveReports.trans a.events.liveReports⟩

theorem State.OnlyPorts.restartKeeps {s t : State} (a : s.OnlyPorts t) : s.RestartKeeps t :=
  ⟨a.supervision.supervisor, a.supervision.threshold, a.supervision.recovery, a.supervision.filterTime, a.served.1,
    a.served.2.1, a.served.2.2.1, a.served.2.2.2, a.inputs, a.events⟩

theorem State.OnlyLines.restartKeeps {s t : State} (a : s.OnlyLines t) : s.RestartKeeps t :=
  have b := a.outside
  ⟨b.supervisor, b.threshold, b.recovery, b.filterTime, b.servedCT, b.servedSC, b.servedNS, b.servedSV,
    ⟨b.confirmInputs, b.severInputs, b.now, b.pending⟩, ⟨b.ackEvents, b.liveReports⟩⟩

theorem State.cleared_restartKeeps (s : State) : s.RestartKeeps s.cleared :=
  ⟨rfl, rfl, rfl, rfl, rfl, rfl, rfl, rfl, ⟨rfl, rfl, rfl, rfl⟩, ⟨rfl, rfl⟩⟩

theorem State.changeMode_restartKeeps (s : State) (m : DeviceMode) : s.RestartKeeps (s.changeMode m) :=
  ⟨rfl, rfl, rfl, rfl, rfl, rfl, rfl, rfl, ⟨rfl, rfl, rfl, rfl⟩, ⟨rfl, rfl⟩⟩

/-- What the event of RESTART leaves (R19, R53, R100, R126, R142, R155, R156). -/
structure State.RestartsTo (s t : State) : Prop where
  claims : t.claims = []
  slot : ∀ q k, t.slot q k = .free
  mode : t.mode = .setup
  session : ∀ q, t.session q = s.restartedSession q (s.session q)
  queue : ∀ q, t.queue q = s.restartedQueue q (s.queue q)
  port : ∀ q, t.port q = s.restartedPort q (s.port q)
  resource : ∀ x, t.resource x = (s.resource x).map fun r => { r with kind := r.kind.restarted s.now }
  lineReports : ∀ y ∈ t.lineReports, s.isLineRes y.resource = true → y.current = false
  drainReports : true ∉ t.drainReports
  keeps : s.RestartKeeps t

theorem State.restartEvent_restartsTo (s : State) : s.RestartsTo s.restartEvent where
  claims := s.restartEvent_claims
  slot := s.restartEvent_slot
  mode := s.restartEvent_mode
  session := s.restartEvent_session
  queue := s.restartEvent_queue
  port := s.restartEvent_port
  resource := s.restartEvent_resource
  lineReports _ := s.restartEvent_lineReports
  drainReports := s.restartEvent_drainReports
  keeps := by
    rw [State.restartEvent_eq_restarted]
    exact ((s.ended_onlyPorts.restartKeeps.trans s.ended.cleared_restartKeeps).trans s.restarted_onlyLines.restartKeeps).trans
      (State.changeMode_restartKeeps ..)

/-! ### The request -/

section
variable {s : State} {p : Port} {f : Frame}

/-- The taking of a request may restart a session's window, but leaves the session open for the same client (R112, R124). -/
theorem State.taking_opened (k : RequestKind) {q : Port} {o : OpenSession} (h : (s.session q).state.opened = some o) :
    ∃ o', ((s.taking k p f).session q).state.opened = some o' ∧ o'.clientId = o.clientId := by
  by_cases e : q = p
  · subst e
    obtain ⟨u, seen, hu⟩ := s.taking_session_eq k q f
    rw [hu]
    cases hs : (s.session q).state with
    | idle | severed => rw [hs] at h; cases h
    | live o1 =>
      rw [hs] at h; cases h
      obtain ⟨o', h', hid, -⟩ := seen.live _ hs
      exact ⟨o', by rw [h']; rfl, hid⟩
    | lapsed o1 l =>
      rw [hs] at h; cases h
      obtain ⟨l', h', -⟩ := seen.lapsed _ _ hs
      exact ⟨o, by rw [h']; rfl, rfl⟩
  · exact ⟨o, by rw [State.taking_session_other s k p f q e]; exact h, rfl⟩

theorem State.OpenFor.restart_verdict (ho : s.OpenFor p f) (hp : p = s.supervisor) :
    RequestKind.restart.verdict p f (s.taking .restart p f) =
      .executed .ok [byteOf ((List.finRange 6).countP fun k => s.isOpen k), byteOf s.claims.length]
        (s.taking .restart p f).restartEvent := by
  show restartVerdict p f (s.taking .restart p f) = _
  have hc := State.supervisorChecks_open (ho.taking (k := .restart)) (by simpa using hp)
  rw [restartVerdict, Verdict.checked_none hc]
  simp

/-- The taking of a request, for all that RESTART keeps, but that Supervision has served the port last. -/
theorem State.taking_restart : (s.taking .restart p f).servedCT = s.servedCT ∧ (s.taking .restart p f).servedSC = s.servedSC
    ∧ (s.taking .restart p f).servedNS = s.servedNS ∧ (s.taking .restart p f).servedSV = p
    ∧ s.SameInputs (s.taking .restart p f) ∧ s.SameEvents (s.taking .restart p f) := by
  obtain ⟨u, seen, e⟩ := s.taking_seen .restart p f
  rw [e]
  obtain ⟨hct, hsc, hns, -⟩ := seen.served
  obtain ⟨hci, hsi, hn, hq⟩ := seen.inputs
  exact ⟨hct, hsc, hns, rfl, ⟨hci, hsi, hn, hq⟩, seen.ackEvents, seen.liveReports⟩

/-- A session open before RESTART is severed with what it owned, its queue and its port are cleared (R120, R126, R142). -/
theorem State.RestartsTo.opened {e : State} (a : (s.taking .restart p f).RestartsTo e) {q : Port} {o : OpenSession}
    (h : (s.session q).state.opened = some o) :
    e.session q = { incarnation := s.incarnation q
                    state := .severed
                      { reason := .restart, incarnation := s.incarnation q, clientId := o.clientId
                        holdings := (s.holdingsOf q).length, requests := s.openRequests q } }
    ∧ e.queue q = { s.queue q with entries := [] } ∧ (e.port q).inbound = [] ∧ (e.port q).cache = none := by
  obtain ⟨o', ho', hid⟩ := s.taking_opened (f := f) (p := p) .restart h
  have opened := State.isOpen_of_opened _ q ho'
  have incarnation := s.taking_incarnation .restart p f q
  rw [State.incarnation] at incarnation
  rw [a.session, a.queue, a.port, State.restartedSession, ho', State.restartedQueue, State.restartedPort, if_pos opened,
    if_pos opened]
  exact ⟨by simp [State.severReport, hid, incarnation], by rw [State.taking_queue], rfl, rfl⟩

/-- A port without an open session is left as it was (R126). -/
theorem State.RestartsTo.closed {e : State} (a : (s.taking .restart p f).RestartsTo e) {q : Port} (hne : q ≠ p)
    (h : s.isOpen q = false) : e.session q = s.session q ∧ e.queue q = s.queue q ∧ e.port q = s.port q := by
  have closed : ¬ (s.taking .restart p f).isOpen q = true := by rw [State.taking_isOpen, h]; exact Bool.false_ne_true
  have none := (State.opened_none_iff (s.taking .restart p f) q).mpr (by simpa using closed)
  rw [a.session, a.queue, a.port, State.restartedSession, none, State.restartedQueue, State.restartedPort, if_neg closed,
    if_neg closed, State.taking_queue, State.taking_port, if_neg hne.symm]
  exact ⟨State.taking_session_other s _ p f q hne, rfl, rfl⟩

theorem State.RestartsTo.rates {e : State} (a : (s.taking .restart p f).RestartsTo e) (q : Port) :
    (e.port q).rate = (s.port q).rate ∧ (e.port q).pendingRate = (s.port q).pendingRate := by
  rw [a.port, State.taking_port]
  by_cases h : p = q
  · subst h
    rw [if_pos rfl]
    unfold State.restartedPort
    split <;> exact ⟨rfl, rfl⟩
  · rw [if_neg h]
    unfold State.restartedPort
    split <;> exact ⟨rfl, rfl⟩

/-- The placing of a reply leaves the inbound queue and the rates of every port. -/
theorem State.place_port_keeps (s : State) (st : Status) (body : List Byte) (ex : Bool) (q : Port) :
    ((s.place p f st body ex).port q).inbound = (s.port q).inbound
    ∧ ((s.place p f st body ex).port q).rate = (s.port q).rate
    ∧ ((s.place p f st body ex).port q).pendingRate = (s.port q).pendingRate := by
  rw [State.place_port]
  by_cases h : p = q
  · subst h; rw [if_pos rfl]; exact ⟨rfl, rfl, rfl⟩
  · rw [if_neg h]; exact ⟨rfl, rfl, rfl⟩

/-- The reply of an executed request is cached (R173). -/
theorem State.place_cache (s : State) (st : Status) (body : List Byte) :
    ∀ y ∈ ((s.place p f st body true).port p).replies.getLast?, ((s.place p f st body true).port p).cache =
      some { kind := f.kind, tag := f.tag, inc := f.inc, reply := y.bytes } := by
  intro y hy
  rw [State.place_port, if_pos rfl] at hy ⊢
  simp only [PortInterface.addReply, List.getLast?_concat, Option.mem_some] at hy
  rw [← hy]
  rfl

/-- Settles O41: the event of RESTART (`State.RestartsTo`) stands between the taking of the request and its reply. -/
theorem restartClearsThePart : Obligations.RestartClearsThePart := by
  intro p f s h ho hp
  obtain ⟨hexec, hans, -⟩ := h.executed (ho.restart_verdict hp)
  have restarts := (s.taking .restart p f).restartEvent_restartsTo
  revert hexec hans
  generalize (s.taking .restart p f).restartEvent = e at restarts
  rw [show e.endOfServe RequestKind.restart.owner = e from rfl]
  intro hexec hans
  obtain ⟨hct, hsc, hns, hsv, hin, hev⟩ := State.taking_restart (s := s) (p := p) (f := f)
  have keeps := restarts.keeps
  obtain ⟨hci, hsi, hn, hpend⟩ := hin.trans keeps.inputs
  have placed := e.place_port_keeps (p := p) (f := f) .ok
    [byteOf ((List.finRange 6).countP fun k => s.isOpen k), byteOf s.claims.length] true
  refine ⟨_, hexec, hans, restarts.claims, restarts.slot, restarts.mode, fun q o hq => ?_, State.place_cache e _ _,
    fun q hq => ?_, fun x r sh st hx hk => ?_, fun x r d st lu hx hk => ?_, fun x hx => ?_, fun y hy hl => ?_,
    restarts.drainReports, keeps.supervisor.trans (s.taking_supervisor ..), keeps.threshold.trans (s.taking_threshold ..),
    keeps.recovery.trans (s.taking_recovery ..), keeps.filterTime.trans (s.taking_filterTime ..), fun q => ?_,
    keeps.servedCT.trans hct, keeps.servedSC.trans hsc, keeps.servedNS.trans hns, keeps.servedSV.trans hsv,
    ⟨hci, hsi, hn, hpend⟩,
    ⟨keeps.events.ackEvents.trans hev.ackEvents, keeps.events.liveReports.trans hev.liveReports⟩⟩
  · obtain ⟨session, queue, inbound, cache⟩ := restarts.opened hq
    refine ⟨session, queue, (placed q).1.trans inbound, fun hne => ?_⟩
    rw [State.place_port, if_neg hne.symm, cache]
  · have hne : q ≠ p := fun e => by rw [e, ho.isOpen] at hq; cases hq
    obtain ⟨session, queue, port⟩ := restarts.closed hne hq
    refine ⟨session, queue, ?_⟩
    rw [State.place_port, if_neg hne.symm, port]
  · rw [State.resource_place, restarts.resource, State.taking_resource, hx]
    simp [hk, Kind.restarted]
  · rw [State.resource_place, restarts.resource, State.taking_resource, hx]
    simp [hk, Kind.restarted]
  · rw [State.resource_place, restarts.resource, State.taking_resource, hx]
    rfl
  · refine restarts.lineReports y hy ?_
    rw [← hl]
    simp [State.isLineRes]
  · obtain ⟨-, rate, pendingRate⟩ := placed q
    obtain ⟨rate', pendingRate'⟩ := restarts.rates q
    exact ⟨rate.trans rate', pendingRate.trans pendingRate'⟩
end

end Sys2Proof.Machine
end

section
/-! ## The requests that read -/

namespace Sys2Proof.Machine

/-! ### Reading changes nothing -/

section
variable {s : State} {p : Port} {f : Frame}

theorem State.taking_stateOpened (k : RequestKind) (ho : s.OpenFor p f) :
    ∃ o, ((s.taking k p f).session p).state.opened = some o := by
  rw [← Option.isSome_iff_exists, SessionState.opened_isSome]
  exact (ho.taking (k := k)).isOpen

@[simp] theorem State.taking_partInfoBody (k : RequestKind) : (s.taking k p f).partInfoBody p = s.partInfoBody p := by
  simp [State.partInfoBody]

@[simp] theorem State.taking_remainingGuard (k : RequestKind) (d : Kind) :
    (s.taking k p f).remainingGuard d = s.remainingGuard d := by
  unfold State.remainingGuard
  rw [State.taking_now]

@[simp] theorem State.taking_resourceInfoBody (k : RequestKind) (x : ResNo) (r : Resource) :
    (s.taking k p f).resourceInfoBody x r = s.resourceInfoBody x r := by
  simp [State.resourceInfoBody, State.assignedByPort]

@[simp] theorem State.taking_claimsFrom (k : RequestKind) (q : Port) (n : Nat) :
    (s.taking k p f).claimsFrom q n = s.claimsFrom q n := by
  simp [State.claimsFrom]

@[simp] theorem State.taking_holdingsBody (k : RequestKind) (q : Port) (n : Nat) :
    (s.taking k p f).holdingsBody q n = s.holdingsBody q n := by
  simp [State.holdingsBody]

/-- PART_INFO is answered on an IDLE port too (R104, R158). -/
theorem State.partInfoChecks_passed (h : (s.session p).state = .idle ∨ s.OpenFor p f) :
    firstRefusal (s.partInfoChecks p f) = none := by
  rcases h with h | h
  · simp [State.partInfoChecks, firstRefusal, h, State.isOpen, SessionState.isOpen]
  · have ho := h.isOpen
    rw [State.isOpen] at ho
    cases hs : (s.session p).state with
    | idle | severed => rw [hs] at ho; cases ho
    | live | lapsed => simp [State.partInfoChecks, firstRefusal, hs, h.current]

theorem State.taking_session_idle (k : RequestKind) (h : (s.session p).state = .idle) :
    ((s.taking k p f).session p).state = .idle := by
  rw [State.taking_session_closed s k p f (by simp [State.isOpen, h, SessionState.isOpen]), h]

theorem State.OpenFor.resourceInfo_verdict (ho : s.OpenFor p f) :
    RequestKind.resourceInfo.verdict p f (s.taking .resourceInfo p f) = .checked (s.resourceChecks (f.byte 0))
      (.executed .ok (((s.resource (resOf (f.byte 0))).map (s.resourceInfoBody (resOf (f.byte 0)))).getD [])
        (s.taking .resourceInfo p f)) := by
  show resourceInfoVerdict p f (s.taking .resourceInfo p f) = _
  rw [resourceInfoVerdict, Verdict.checked_append (State.sessionChecks_open (ho.taking (k := .resourceInfo)))]
  have body : (s.taking .resourceInfo p f).resourceInfoBody (resOf (f.byte 0)) = s.resourceInfoBody (resOf (f.byte 0)) :=
    funext fun r => State.taking_resourceInfoBody ..
  rw [body, State.taking_resource]
  simp [State.resourceChecks]

theorem State.OpenFor.holdings_verdict (ho : s.OpenFor p f) :
    RequestKind.holdings.verdict p f (s.taking .holdings p f) =
      .checked [(decide (63 < (f.byte 0).toNat), .badParameter)]
        (.executed .ok (s.holdingsBody p (f.byte 0).toNat) (s.taking .holdings p f)) := by
  show holdingsVerdict p f (s.taking .holdings p f) = _
  rw [holdingsVerdict, Verdict.checked_append (State.sessionChecks_open (ho.taking (k := .holdings))),
    State.taking_holdingsBody]

/-! ### The reply bodies -/

theorem wordBytes_zero : wordBytes 0 = [0, 0] := by decide

theorem wordBytes_length (w : Word16) : (wordBytes w).length = 2 := rfl

theorem Slot.codes_length (v : Slot) : v.codes.length = 2 := by
  cases v <;> rfl

/-- The two bytes of a slot, the outcome of a DONE one by its code (R192). -/
theorem Slot.codes_cases (v : Slot) : v.codes =
    match v with
    | .free => [0, 0]
    | .waiting fl _ => [1, byteOf fl.items.length]
    | .assembling fl _ => [2, byteOf fl.items.length]
    | .done _ .granted => [3, 0]
    | .done _ .expired => [3, 1]
    | .done _ .failed => [3, 2]
    | .done _ .withdrawn => [3, 3] := by
  cases v with
  | free | waiting | assembling => rfl
  | done n o => cases o <;> rfl

/-- A list made of pieces of one length. -/
theorem length_flatMap_of_length {α β : Type} (n : Nat) (g : α → List β) (as : List α) (h : ∀ a ∈ as, (g a).length = n) :
    (as.flatMap g).length = n * as.length := by
  rw [List.length_flatMap, List.map_congr_left h, List.map_const', List.sum_replicate, smul_eq_mul, Nat.mul_comm]

theorem State.sessionInfoBody_length (s : State) (p : Port) (o : OpenSession) : (s.sessionInfoBody p o).length = 30 := by
  have slots : ((List.finRange 8).flatMap fun k => (s.slot p k).codes).length = 16 := by
    rw [length_flatMap_of_length 2 _ _ fun k _ => Slot.codes_length _, List.length_finRange]
  have live : ((s.session p).state.liveness).length = 3 := by cases (s.session p).state <;> rfl
  simp only [State.sessionInfoBody, List.length_append, slots, live, wordBytes_length]
  rfl

end

/-! ### SESSION_INFO -/

/-- The fields before and behind the liveness bytes of SESSION_INFO (R192). -/
theorem State.sessionInfoBody_eq (s : State) (p : Port) (o : OpenSession) : s.sessionInfoBody p o =
    [(s.session p).state.code, s.incarnation p] ++ wordBytes o.clientId ++ wordBytes o.keepalive ++
      wordBytes (BitVec.ofNat 16 ((o.windowEnds - s.now + 99) / 100)) ++ (s.session p).state.liveness ++
      ((List.finRange 8).flatMap (fun h => (s.slot p h).codes) ++
        [byteOf (s.claims.countP fun c => c.owner == p && c.state.isHeld), byteOf (s.queue p).entries.length,
         byteOf ((s.queue p).entries.countP fun e => !e.delivered)]) := by
  simp only [State.sessionInfoBody, State.holdingsOf, NoticeQueue.undelivered, List.countP_eq_length_filter,
    List.append_assoc]
  rfl

/-! ### RESOURCE_INFO -/

/-- Lists of claims picked by a key, in ascending order of the keys, are in ascending order. -/
theorem pairwise_flatMap_keys {n : Nat} (ks : List (Fin n)) (hk : ks.Pairwise (· < ·)) (key : Claim → Fin n)
    (g : Fin n → List Claim) (hg : ∀ k, ∀ c ∈ g k, key c = k) :
    (ks.flatMap g).Pairwise fun c d => (key c).val ≤ (key d).val := by
  rw [List.pairwise_flatMap]
  refine ⟨fun k _ => List.pairwise_of_forall_mem_list fun c hc d hd => ?_, hk.imp fun hlt c hc d hd => ?_⟩
  · rw [hg k c hc, hg k d hd]
  · rw [hg _ c hc, hg _ d hd]; exact Nat.le_of_lt hlt

theorem State.assignedByPort_pairwise (s : State) (x : ResNo) :
    (s.assignedByPort x).Pairwise fun c d => c.owner.val ≤ d.owner.val :=
  pairwise_flatMap_keys _ (List.pairwise_lt_finRange 6) Claim.owner _ fun k c hc => by
    simpa using (List.mem_filter.mp hc).2

/-- The assigned set, port by port, is the assigned set (R9). -/
theorem State.assignedByPort_perm (s : State) (x : ResNo) : (s.assignedByPort x).Perm (s.assigned x) := by
  rw [List.perm_iff_count]
  intro c
  rw [State.assignedByPort, List.count_flatMap,
    List.sum_map_eq_nsmul_single c.owner _ fun q hq _ => by
      rw [Function.comp_apply, List.count_eq_zero]
      exact fun hm => hq (by simpa using (List.mem_filter.mp hm).2 : c.owner = q).symm,
    List.count_eq_one_of_mem (List.nodup_finRange 6) (List.mem_finRange _), one_smul]
  exact List.count_filter (by simp)

theorem State.mem_assignedByPort {s : State} {x : ResNo} {c : Claim} (h : c ∈ s.assignedByPort x) :
    c.state.isAssigned = true :=
  (State.mem_assigned.mp ((s.assignedByPort_perm x).mem_iff.mp h)).2.2

/-- An assigned entry of RESOURCE_INFO: HELD with its grant number, RESERVED with 0 (R192). -/
theorem Claim.assignedEntry_eq {c : Claim} (h : c.state.isAssigned = true) : c.assignedEntry =
    [byteOf c.owner, c.mode.code] ++
      (match c.state with
       | .held g _ => 2 :: wordBytes g
       | _ => [1, 0, 0]) := by
  unfold Claim.assignedEntry
  cases hs : c.state with
  | waiting k => rw [hs] at h; cases h
  | reserved k => exact congrArg ([byteOf c.owner, c.mode.code, 1] ++ ·) wordBytes_zero
  | held g ph => rfl

theorem LineDef.drive_toList (d : LineDef) : d.drive.toList = (List.finRange 6).map fun k => d.drive[k] := by
  refine List.ext_getElem (by simp) fun i h1 h2 => ?_
  simp

theorem State.remainingGuard_line (s : State) (d : LineDef) (st : LineState) (lu : PhaseRecord) :
    s.remainingGuard (.line d st lu) =
      match lu.phase with
      | .guard ends => if st = .cooling ∨ st = .guard then ends - s.now else 0
      | _ => 0 := by
  obtain ⟨a, ph⟩ := lu
  cases ph with
  | guard ends => cases st <;> rfl
  | quiet | verify | engage | watch => cases st <;> rfl

theorem State.resourceInfoBody_length (s : State) (x : ResNo) (r : Resource) : (s.resourceInfoBody x r).length =
    (if r.kind.isLine then 32 else 17) + 5 * (s.assigned x).length + 3 * (s.waitQueue x).length := by
  have assigned : ((s.assignedByPort x).flatMap Claim.assignedEntry).length = 5 * (s.assigned x).length := by
    rw [length_flatMap_of_length 5 _ _ fun c _ => rfl, (s.assignedByPort_perm x).length_eq]
  have waiting : ((s.waitQueue x).flatMap Claim.waitEntry).length = 3 * (s.waitQueue x).length :=
    length_flatMap_of_length 3 _ _ fun c _ => rfl
  have record : (r.definitionBytes x ++ r.stateBytes).length = if r.kind.isLine then 28 else 13 := by
    cases h : r.kind with
    | token sh st => simp [Resource.definitionBytes, Resource.stateBytes, h, Kind.isLine, wordBytes_length]
    | line d st lu =>
      cases hc : d.confirm <;>
        simp [Resource.definitionBytes, Resource.stateBytes, h, hc, Kind.isLine, wordBytes_length]
  simp only [State.resourceInfoBody, List.length_append, List.length_cons, wordBytes_length, assigned, waiting] at record ⊢
  rw [record]
  split <;> omega

/-- The record of a TOKEN resource in RESOURCE_INFO (R192). -/
theorem State.tokenBytes (s : State) (x : ResNo) {r : Resource} {sh : Bool} {st : TokenState} (h : r.kind = .token sh st) :
    r.definitionBytes x ++ r.stateBytes ++ wordBytes (BitVec.ofNat 16 (s.remainingGuard r.kind)) =
      [byteOf x, 0] ++ (wordBytes r.label ++ [byteOfBool sh] ++ wordBytes r.holdLimit ++ wordBytes r.yieldGrace) ++ [st.code]
        ++ wordBytes r.grantNumber ++ [if st = .faulted then 4 else 0] ++ [0, 0] := by
  have fault : st.faultCode = if st = .faulted then 4 else 0 := by cases st <;> rfl
  have guard : wordBytes (BitVec.ofNat 16 (s.remainingGuard (.token sh st))) = [0, 0] := wordBytes_zero
  simp only [guard, Resource.definitionBytes, Resource.stateBytes, h, fault, List.append_assoc, List.cons_append,
    List.nil_append]

/-- The record of a LINE resource in RESOURCE_INFO (R192). -/
theorem State.lineBytes (s : State) (x : ResNo) {r : Resource} {d : LineDef} {st : LineState} {lu : PhaseRecord}
    (h : r.kind = .line d st lu) :
    r.definitionBytes x ++ r.stateBytes ++ wordBytes (BitVec.ofNat 16 (s.remainingGuard r.kind)) =
      [byteOf x, 1] ++ (wordBytes r.label ++ [(0 : Byte)] ++ wordBytes r.holdLimit ++ wordBytes r.yieldGrace)
        ++ [d.firstLine, d.width, d.idle] ++ (List.finRange 6).map (fun k => d.drive[k]) ++ wordBytes d.guard
        ++ (match d.confirm with
            | none => ([0xFF, 0xFF, 0, 0] : List Byte)
            | some b => [byteOf b.input, byteOfBool b.engagedHigh] ++ wordBytes b.timeout)
        ++ [st.code] ++ wordBytes r.grantNumber
        ++ [match st with | .faulted y => y.code | _ => 0]
        ++ wordBytes (BitVec.ofNat 16
            (match lu.phase with
             | .guard ends => if st = .cooling ∨ st = .guard then ends - s.now else 0
             | _ => 0)) := by
  rw [h, State.remainingGuard_line, ← LineDef.drive_toList]
  simp only [Resource.definitionBytes, Resource.stateBytes, h, List.append_assoc, List.cons_append, List.nil_append]
  rfl

/-- RESOURCE_INFO: the record, then the assigned and the waiting claims (R192). -/
theorem State.resourceInfoBody_eq (s : State) (x : ResNo) (r : Resource) : s.resourceInfoBody x r =
    (r.definitionBytes x ++ r.stateBytes ++ wordBytes (BitVec.ofNat 16 (s.remainingGuard r.kind))) ++
      (byteOf (s.assignedByPort x).length :: (s.assignedByPort x).flatMap Claim.assignedEntry ++
        byteOf (s.waitQueue x).length :: (s.waitQueue x).flatMap Claim.waitEntry) := by
  simp only [State.resourceInfoBody, List.append_assoc]

/-! ### HOLDINGS -/

theorem State.mem_claimsFrom {s : State} {p : Port} {start : Nat} {c : Claim} :
    c ∈ s.claimsFrom p start ↔ c ∈ s.claims ∧ c.owner = p ∧ start ≤ c.resource.val := by
  simp only [State.claimsFrom, List.mem_flatMap, List.mem_filter, List.mem_finRange, true_and, decide_eq_true_eq,
    Bool.and_eq_true, beq_iff_eq]
  constructor
  · rintro ⟨x, hx, hc, ho, rfl⟩; exact ⟨hc, ho, hx⟩
  · rintro ⟨hc, ho, hx⟩; exact ⟨_, hx, hc, ho, rfl⟩

theorem State.claimsFrom_pairwise (s : State) (p : Port) (start : Nat) :
    (s.claimsFrom p start).Pairwise fun c d => c.resource.val ≤ d.resource.val :=
  pairwise_flatMap_keys _ ((List.pairwise_lt_finRange 64).filter _) Claim.resource _ fun k c hc => by
    have := (List.mem_filter.mp hc).2
    simp only [Bool.and_eq_true, beq_iff_eq] at this
    exact this.2

/-- An entry of HOLDINGS, by the state of the claim (R192). -/
theorem Claim.holdingsEntry_eq (c : Claim) : c.holdingsEntry =
    [byteOf c.resource, c.mode.code] ++
      (match c.state with
       | .waiting h => [0, byteOf h, 0, 0]
       | .reserved h => [1, byteOf h, 0, 0]
       | .held g ph => [2, ph.code] ++ wordBytes g) := by
  unfold Claim.holdingsEntry
  cases c.state with
  | waiting h => exact congrArg ([byteOf c.resource, c.mode.code, 0, byteOf h] ++ ·) wordBytes_zero
  | reserved h => exact congrArg ([byteOf c.resource, c.mode.code, 1, byteOf h] ++ ·) wordBytes_zero
  | held g ph => rfl

theorem State.holdingsBody_length (s : State) (p : Port) (start : Nat) :
    (s.holdingsBody p start).length = 2 + 6 * min 16 (s.claimsFrom p start).length := by
  have entries : (((s.claimsFrom p start).take 16).flatMap Claim.holdingsEntry).length =
      6 * min 16 (s.claimsFrom p start).length := by
    rw [length_flatMap_of_length 6 _ _ fun c _ => rfl, List.length_take]
  rw [State.holdingsBody, List.length_append]
  exact congrArg (2 + ·) entries

/-- Where all claims are reported the continuation is 0xFF (R51). -/
theorem continuation_all {cs : List Claim} (h : cs.length ≤ 16) : continuation cs = 0xFF := by
  have rest : cs.drop Config.holdingsEntries = [] := List.drop_eq_nil_of_le h
  unfold continuation
  rw [rest]
  split
  · next h => cases h
  · rfl

/-- Where further claims exist the continuation is the resource number after the last one reported (R51). -/
theorem continuation_more {cs : List Claim} (h : 16 < cs.length) :
    continuation cs = byteOf ((cs[15]'(by omega)).resource.val + 1) := by
  have rest : cs.drop Config.holdingsEntries = cs[16] :: cs.drop 17 := List.drop_eq_getElem_cons h
  have last : (cs.take Config.holdingsEntries).getLast? = some (cs[15]'(by omega)) := by
    rw [List.getLast?_take]
    simp [Config.holdingsEntries, List.getElem?_eq_getElem (show 15 < cs.length by omega)]
  unfold continuation
  rw [rest, last]

/-! ### The obligation -/

/-- Settles O9: a read's verdict leaves the state of the taking, and its body is that of R192. -/
theorem readsAnswerAndChangeNothing : Obligations.ReadsAnswerAndChangeNothing := by
  refine ⟨fun p f s => ⟨fun h ho => ?_, fun h ho => ?_, fun h ho => ?_, fun r h ho hx hr => ⟨?_, s.resourceInfoBody_length _ r⟩,
    fun h ho => ⟨fun hx => ?_, fun x hx hr => ?_⟩, fun h ho hx => ⟨?_, s.holdingsBody_length p _⟩, fun h ho hx => ?_⟩,
    fun s p o => ?_, fun s x r => ?_, fun s p start => ?_⟩
  · exact (h.executed (Verdict.checked_none (State.sessionChecks_open ho.taking))).1
  · obtain ⟨o, hopen⟩ := State.taking_stateOpened .sessionInfo ho
    refine ⟨o, hopen, State.sessionInfoBody_length _ p o, ?_⟩
    have verdict : RequestKind.sessionInfo.verdict p f (s.taking .sessionInfo p f) =
        .executed .ok ((((s.taking .sessionInfo p f).session p).state.opened.map
          ((s.taking .sessionInfo p f).sessionInfoBody p)).getD []) (s.taking .sessionInfo p f) :=
      Verdict.checked_none (State.sessionChecks_open ho.taking)
    rw [hopen] at verdict
    exact (h.executed verdict).1
  · have verdict : RequestKind.partInfo.verdict p f (s.taking .partInfo p f) =
        .executed .ok ((s.taking .partInfo p f).partInfoBody p) (s.taking .partInfo p f) :=
      Verdict.checked_none (State.partInfoChecks_passed (ho.imp (State.taking_session_idle .partInfo) State.OpenFor.taking))
    rw [State.taking_partInfoBody] at verdict
    exact (h.executed verdict).1
  · have verdict := ho.resourceInfo_verdict
    simp only [State.resourceChecks, Verdict.checked_cons, Verdict.checked_nil, hr, decide_eq_true_eq, Nat.not_lt.mpr hx,
      if_false, Option.isNone_some, Bool.false_eq_true] at verdict
    exact (h.executed verdict).1
  · have verdict := ho.resourceInfo_verdict
    rw [State.resourceChecks, Verdict.checked_cons, if_pos (by simpa using hx)] at verdict
    exact h.refused verdict nofun
  · have verdict := ho.resourceInfo_verdict
    have inRange : ¬ 63 < (f.byte 0).toNat := by omega
    simp only [State.resourceChecks, Verdict.checked_cons, resOf_eq hx, hr, decide_eq_true_eq, inRange, if_false,
      Option.isNone_none, if_true] at verdict
    exact h.refused verdict nofun
  · have verdict := ho.holdings_verdict
    rw [Verdict.checked_cons, if_neg (by simpa using hx)] at verdict
    exact (h.executed verdict).1
  · have verdict := ho.holdings_verdict
    rw [Verdict.checked_cons, if_pos (by simpa using hx)] at verdict
    exact h.refused verdict nofun
  · refine ⟨fun hs => ?_, fun l hs => ?_⟩ <;> rw [State.sessionInfoBody_eq, hs] <;>
      refine congrArg (_ ++ ·) (congrArg (· ++ _) (List.flatMap_congr fun k _ => ?_)) <;>
      exact Slot.codes_cases _
  · refine ⟨s.assignedByPort x, s.assignedByPort_perm x, s.assignedByPort_pairwise x, fun sh st hk => ?_, fun d st lu hk => ?_⟩
    all_goals
      rw [State.resourceInfoBody_eq]
      have entries := List.flatMap_congr fun c hc => Claim.assignedEntry_eq (s.mem_assignedByPort (x := x) hc)
      rw [entries]
    · exact congrArg (· ++ _) (s.tokenBytes x hk)
    · exact congrArg (· ++ _) (s.lineBytes x hk)
  · refine ⟨fun c => State.mem_claimsFrom, s.claimsFrom_pairwise p start, ?_, continuation_all, continuation_more⟩
    rw [State.holdingsBody, List.length_take]
    exact congrArg (_ ++ ·) (List.flatMap_congr fun c _ => c.holdingsEntry_eq)

end Sys2Proof.Machine
end

section
/-! ## What an event makes of the claims, the slots and their laws

A claim keeps its port, resource and mode; it leaves a wait queue for the assigned set only in SERVICE with its session LIVE
(R35); and the claims and slots stay in agreement (R23, R145, R149). -/

namespace Sys2Proof.Machine

/-- A claim after an event, from what it was; `may` says of a port that its claims may pass from WAITING to RESERVED or HELD. -/
structure Claim.Passes (may : Port → Prop) (c' c : Claim) : Prop where
  key : c'.key = c.key
  mode : c'.mode = c.mode
  waits : c'.state.isWaiting = true → c' = c
  assigned : c'.state.isAssigned = true → c.state.isAssigned = true ∨ may c.owner

/-- The mode is SERVICE and the session of the port is LIVE (R35). -/
def State.Serves (s : State) (p : Port) : Prop := s.mode = .service ∧ s.isLive p = true

/-- Claims leave and pass, slots end, and the laws of R34 and R23 are kept; no claim is filed. -/
structure State.Advances (s t : State) : Prop where
  claims : List.SublistForall₂ (Claim.Passes t.Serves) t.claims s.claims
  slots : ∀ p h, (t.slot p h).isWaiting = true → t.slot p h = s.slot p h
  exclusive : s.OneEach → s.ExclusiveLaw → t.ExclusiveLaw
  law : s.TableLaw → t.TableLaw

/-- What one event makes of the open request of a port and handle: nothing, its end, its reservation (R38), or the completion
of an item (R39). -/
inductive State.RequestMoves (s t : State) (p : Port) (h : Handle) : Prop where
  | same (slot : t.slot p h = s.slot p h)
      (claims : ∀ c, Claim.ofRequest p h c = true → (c ∈ t.claims ↔ c ∈ s.claims))
  | closed (slot : (t.slot p h).isOpen = false) (claims : t.NoRequest p h)
  | reserved (f : Filing) (tm : Option Time) (pend : List ResNo) (was : s.slot p h = .waiting f tm)
      (slot : t.slot p h = .assembling f pend)
      (claims : ∀ c, Claim.ofRequest p h c = true →
        (c ∈ t.claims ↔ ∃ d ∈ s.claims, Claim.ofRequest p h d = true ∧ c = { d with state := .reserved h }))
  | completed (f : Filing) (pend pend' : List ResNo) (was : s.slot p h = .assembling f pend)
      (slot : t.slot p h = .assembling f pend')
      (claims : ∀ c, Claim.ofRequest p h c = true → (c ∈ t.claims ↔ c ∈ s.claims))

/-! ### Claims that leave and pass -/

theorem sublistForall₂_comp {α β γ : Type} {R : α → β → Prop} {S : β → γ → Prop} {T : α → γ → Prop} {as : List α}
    {bs : List β} {cs : List γ} (hab : List.SublistForall₂ R as bs) (hbc : List.SublistForall₂ S bs cs)
    (h : ∀ a ∈ as, ∀ b c, R a b → S b c → T a c) : List.SublistForall₂ T as cs := by
  induction hbc generalizing as with
  | nil => cases hab; exact .nil
  | cons hr _ ih =>
    cases hab with
    | nil => exact .nil
    | cons hr' hab => exact .cons (h _ (by simp) _ _ hr' hr) (ih hab fun a ha => h a (by simp [ha]))
    | cons_right hab => exact .cons_right (ih hab h)
  | cons_right _ ih => exact .cons_right (ih hab h)

section
variable {may may' : Port → Prop} {c c' c'' : Claim} {cs cs' : List Claim}

theorem Claim.Passes.refl (c : Claim) : Claim.Passes may c c := ⟨rfl, rfl, fun _ => rfl, .inl⟩

theorem Claim.key_owner (h : c'.key = c.key) : c'.owner = c.owner := congrArg Prod.fst h

theorem Claim.key_resource (h : c'.key = c.key) : c'.resource = c.resource := congrArg Prod.snd h

theorem Claim.Passes.trans (a : Claim.Passes may' c'' c') (b : Claim.Passes may c' c) (h : may c''.owner → may' c''.owner) :
    Claim.Passes may' c'' c where
  key := a.key.trans b.key
  mode := a.mode.trans b.mode
  waits hw := by
    have e := a.waits hw
    subst e
    exact b.waits hw
  assigned ha := by
    have e := Claim.key_owner a.key
    have e' := Claim.key_owner b.key
    rcases a.assigned ha with h1 | h1
    · rw [← e', ← e]
      exact (b.assigned h1).imp id fun h2 => h (by rwa [e, e'])
    · exact .inr (by rwa [← e'])

theorem passes_of_sublist (h : cs'.Sublist cs) : List.SublistForall₂ (Claim.Passes may) cs' cs :=
  List.sublistForall₂_iff.mpr ⟨cs', List.forall₂_same.mpr fun c _ => .refl c, h⟩

theorem passes_of_map (g : Claim → Claim) (h : ∀ c ∈ cs, Claim.Passes may (g c) c) :
    List.SublistForall₂ (Claim.Passes may) (cs.map g) cs :=
  List.sublistForall₂_iff.mpr ⟨cs, List.forall₂_map_left_iff.mpr (List.forall₂_same.mpr h), .refl _⟩

/-- The keys of the claims that remain (R21). -/
theorem passes_keys (h : List.SublistForall₂ (Claim.Passes may) cs' cs) : (cs'.map Claim.key).Sublist (cs.map Claim.key) := by
  induction h with
  | nil => exact List.nil_sublist _
  | cons hp _ ih => simpa [hp.key] using ih
  | cons_right _ ih => exact .cons _ ih

/-- The claims that still wait (R32). -/
theorem passes_waiting (h : List.SublistForall₂ (Claim.Passes may) cs' cs) (x : ResNo) :
    (cs'.filter fun c => c.resource == x && c.state.isWaiting).Sublist
      (cs.filter fun c => c.resource == x && c.state.isWaiting) := by
  induction h with
  | nil => exact List.nil_sublist _
  | @cons c' c _ _ hp _ ih =>
    cases hw : c'.resource == x && c'.state.isWaiting with
    | true =>
      simp only [Bool.and_eq_true] at hw
      obtain rfl := hp.waits hw.2
      simpa [hw] using ih
    | false =>
      rw [List.filter_cons_of_neg (by simp [hw])]
      exact ih.trans ((List.sublist_cons_self _ _).filter _)
  | @cons_right c _ _ _ ih => exact ih.trans ((List.sublist_cons_self _ _).filter _)

theorem passes_mem (h : List.SublistForall₂ (Claim.Passes may) cs' cs) (hc : c' ∈ cs') : ∃ c ∈ cs, Claim.Passes may c' c := by
  induction h with
  | nil => cases hc
  | @cons a b _ _ hp _ ih =>
    rcases List.mem_cons.mp hc with rfl | hc
    · exact ⟨b, by simp, hp⟩
    · obtain ⟨d, hd, hp'⟩ := ih hc
      exact ⟨d, by simp [hd], hp'⟩
  | cons_right _ ih =>
    obtain ⟨d, hd, hp'⟩ := ih hc
    exact ⟨d, by simp [hd], hp'⟩
end

/-! ### The law of the table, request by request -/

section
variable {s t u : State}

theorem Slot.Backs.reserved {f : Filing} {tm : Option Time} {pend : List ResNo} {c : Claim} {h : Handle}
    (hb : (Slot.waiting f tm).Backs c) : (Slot.assembling f pend).Backs { c with state := .reserved h } := ⟨rfl, hb.2⟩

/-- R23: every claim with a handle belongs to an open request, and every item of one has a claim. -/
theorem State.TableLaw.of_moves (law : s.TableLaw) (moves : ∀ p h, s.RequestMoves t p h)
    (claims : List.SublistForall₂ (Claim.Passes t.Serves) t.claims s.claims)
    (defined : ∀ x, (t.resource x).isSome = (s.resource x).isSome) (hm : t.mode = s.mode)
    (hd : t.drainReports = s.drainReports) : t.TableLaw := by
  have empty : s.claims = [] → t.claims = [] := fun e => by simpa [e] using passes_keys claims
  refine ⟨fun c hc h hh => ?_, fun p h i hi => ?_, fun p h ho => ?_, fun c hc => ?_, fun h => empty (law.setup (hm ▸ h)),
    fun h => ?_⟩
  · have ho : Claim.ofRequest c.owner h c = true := Claim.ofRequest_iff.mpr ⟨rfl, hh⟩
    cases moves c.owner h with
    | same slot claims => rw [slot]; exact law.backed c ((claims c ho).mp hc) h hh
    | closed slot claims => rw [claims c hc] at ho; cases ho
    | reserved f tm pend was slot claims =>
      obtain ⟨d, hd, hod, e⟩ := (claims c ho).mp hc
      obtain ⟨hdo, hdh⟩ := Claim.ofRequest_iff.mp hod
      have hb := law.backed d hd h hdh
      rw [hdo, was] at hb
      rw [slot, e]
      exact hb.reserved
    | completed f pend pend' was slot claims =>
      have hb := law.backed c ((claims c ho).mp hc) h hh
      rw [was] at hb
      rw [slot]; exact hb
  · cases moves p h with
    | same slot claims =>
      rw [slot] at hi
      obtain ⟨c, hc, ho, hr⟩ := law.items p h i hi
      exact ⟨c, (claims c ho).mpr hc, ho, hr⟩
    | closed slot claims => rw [Slot.items_of_closed slot] at hi; cases hi
    | reserved f tm pend was slot claims =>
      rw [slot] at hi
      obtain ⟨c, hc, ho, hr⟩ := law.items p h i (by rw [was]; exact hi)
      have ho' : Claim.ofRequest p h { c with state := .reserved h } = true :=
        Claim.ofRequest_iff.mpr ⟨(Claim.ofRequest_iff.mp ho).1, rfl⟩
      exact ⟨_, (claims _ ho').mpr ⟨c, hc, ho, rfl⟩, ho', hr⟩
    | completed f pend pend' was slot claims =>
      rw [slot] at hi
      obtain ⟨c, hc, ho, hr⟩ := law.items p h i (by rw [was]; exact hi)
      exact ⟨c, (claims c ho).mpr hc, ho, hr⟩
  · cases moves p h with
    | same slot claims => rw [slot] at ho ⊢; exact law.open_ p h ho
    | closed slot claims => rw [slot] at ho; cases ho
    | reserved f tm pend was slot claims => rw [slot]; have := law.open_ p h (by rw [was]; rfl); rwa [was] at this
    | completed f pend pend' was slot claims => rw [slot]; have := law.open_ p h (by rw [was]; rfl); rwa [was] at this
  · obtain ⟨d, hdm, hp⟩ := passes_mem claims hc
    rw [defined, Claim.key_resource hp.key]
    exact law.defined d hdm
  · obtain ⟨h1, h2⟩ := law.drained (hd ▸ h)
    exact ⟨hm ▸ h1, empty h2⟩

theorem State.RequestMoves.slot_waiting {p : Port} {h : Handle} (m : s.RequestMoves t p h)
    (hw : (t.slot p h).isWaiting = true) : t.slot p h = s.slot p h := by
  cases m with
  | same slot => exact slot
  | closed slot => revert slot hw; cases t.slot p h <;> simp [Slot.isWaiting, Slot.isOpen]
  | reserved f tm pend was slot => rw [slot] at hw; cases hw
  | completed f pend pend' was slot => rw [slot] at hw; cases hw

/-! ### Advances, one after the other -/

/-- The claims and slots stand, and what is said of the mode and the drain's reports holds. -/
theorem State.TableLaw.congr (law : s.TableLaw) (hc : t.claims = s.claims) (hs : ∀ p h, t.slot p h = s.slot p h)
    (hr : ∀ c ∈ s.claims, (s.resource c.resource).isSome = true → (t.resource c.resource).isSome = true)
    (hm : t.mode = .setup → s.claims = []) (hd : true ∈ t.drainReports → t.mode ≠ .service ∧ s.claims = []) :
    t.TableLaw where
  backed c h := by rw [hc] at h; simpa only [hs] using law.backed c h
  items p h := by simpa only [hs, hc] using law.items p h
  open_ p h := by simpa only [hs] using law.open_ p h
  defined c h := by rw [hc] at h; exact hr c h (law.defined c h)
  setup := hc ▸ hm
  drained := hc ▸ hd

/-- The claims and slots stand. -/
theorem State.Advances.stand (hc : t.claims = s.claims) (hs : ∀ p h, t.slot p h = s.slot p h)
    (hl : s.TableLaw → t.TableLaw) : s.Advances t where
  claims := passes_of_sublist (hc ▸ .refl _)
  slots p h _ := hs p h
  exclusive _ h := by rw [State.exclusiveLaw_iff] at *; rwa [hc]
  law := hl

/-- No claim is left. -/
theorem State.Advances.of_empty (hc : t.claims = []) (hs : ∀ p h, (t.slot p h).isOpen = false)
    (hd : true ∈ t.drainReports → t.mode ≠ .service) : s.Advances t := by
  have none : ∀ c, c ∉ t.claims := fun c h => by rw [hc] at h; cases h
  refine ⟨hc ▸ .nil, fun p h hw => ?_, fun _ _ => ?_, fun _ => ?_⟩
  · have := hs p h
    revert this hw; cases t.slot p h <;> simp [Slot.isWaiting, Slot.isOpen]
  · rw [State.exclusiveLaw_iff]
    exact fun c h => absurd h (none c)
  · refine ⟨fun c h => absurd h (none c), fun p h i hi => ?_, fun p h ho => ?_, fun c h => absurd h (none c), fun _ => hc,
      fun h => ⟨hd h, hc⟩⟩
    · rw [Slot.items_of_closed (hs p h)] at hi; cases hi
    · rw [hs p h] at ho; cases ho

theorem State.Advances.oneEach (a : s.Advances t) (h : s.OneEach) : t.OneEach := (passes_keys a.claims).nodup h

/-- What stands before an advance is as nothing (R35: the session and the mode need not stand). -/
theorem State.Advances.after (b : u.Advances t) (hc : u.claims = s.claims) (hs : u.slots = s.slots)
    (hl : s.TableLaw → u.TableLaw) : s.Advances t where
  claims := hc ▸ b.claims
  slots p h hw := by rw [b.slots p h hw]; simp [State.slot, hs]
  exclusive h1 h2 := b.exclusive (by unfold State.OneEach; rwa [hc])
    (by rw [State.exclusiveLaw_iff] at *; rwa [hc])
  law h := b.law (hl h)

/-- An advance in which a port that has claims stays LIVE in SERVICE, where it was. -/
structure State.Proceeds (s t : State) : Prop where
  advances : s.Advances t
  serves : ∀ c ∈ t.claims, s.Serves c.owner → t.Serves c.owner

theorem State.Advances.trans (a : s.Advances u) (b : u.Proceeds t) : s.Advances t where
  claims := sublistForall₂_comp b.advances.claims a.claims fun c hc _ _ hb ha => hb.trans ha (b.serves c hc)
  slots p h hw := by
    have e := b.advances.slots p h hw
    exact e.trans (a.slots p h (e ▸ hw))
  exclusive h1 h2 := b.advances.exclusive (a.oneEach h1) (a.exclusive h1 h2)
  law h := b.advances.law (a.law h)

theorem State.Proceeds.trans (a : s.Proceeds u) (b : u.Proceeds t) : s.Proceeds t where
  advances := a.advances.trans b
  serves c hc h := by
    obtain ⟨d, hd, hp⟩ := passes_mem b.advances.claims hc
    have e := Claim.key_owner hp.key
    exact b.serves c hc (by rw [e] at h ⊢; exact a.serves d hd h)

theorem State.Advances.within (a : s.Advances t) (o : s.SameOutsideClaimTable t) : s.Proceeds t :=
  ⟨a, fun c _ h => ⟨o.mode.trans h.1, (o.isLive c.owner).trans h.2⟩⟩

/-- Nothing of the claims, the slots, the mode and the drain's reports changes, and no session ceases to be LIVE. -/
theorem State.Proceeds.same (hc : t.claims = s.claims) (hs : t.slots = s.slots)
    (hr : ∀ x, (t.resource x).isSome = (s.resource x).isSome) (hm : t.mode = s.mode)
    (hd : t.drainReports = s.drainReports) (hl : ∀ p, s.isLive p = true → t.isLive p = true) : s.Proceeds t :=
  ⟨.stand hc (fun p h => by simp [State.slot, hs]) fun law => law.congr hc (fun p h => by simp [State.slot, hs])
    (fun c _ h => (hr _).trans h) (fun h => law.setup (hm ▸ h)) fun h => hm ▸ law.drained (hd ▸ h),
   fun c _ h => ⟨hm.trans h.1, hl _ h.2⟩⟩

theorem State.Proceeds.refl (s : State) : s.Proceeds s := .same rfl rfl (fun _ => rfl) rfl rfl fun _ h => h

theorem State.Proceeds.foldl {α : Type} (f : State → α → State) (hf : ∀ (s : State) (a : α), s.Proceeds (f s a))
    (xs : List α) (s : State) : s.Proceeds (xs.foldl f s) := by
  induction xs generalizing s with
  | nil => exact .refl s
  | cons a xs ih => exact (hf s a).trans (ih (f s a))

theorem State.LineOrder.proceeds {x : ResNo} (o : State.LineOrder x s t) : s.Proceeds t :=
  .same o.claims o.slots o.isSome o.outside.mode o.drainReports fun p h => (o.outside.isLive p).trans h
end

end Sys2Proof.Machine
end

section
/-! ## The claims through the shared operations -/

namespace Sys2Proof.Machine

/-! ### Removals and changes of the hold phase -/

section
variable {s t u : State} {sel : Claim → Bool}

/-- A piece of a Claim Table event that says of every request what becomes of it. -/
theorem State.TableEvent.proceeds (e : s.TableEvent t)
    (claims : List.SublistForall₂ (Claim.Passes t.Serves) t.claims s.claims) (moves : ∀ p h, s.RequestMoves t p h) :
    s.Proceeds t :=
  State.Advances.within ⟨claims, fun p h hw => (moves p h).slot_waiting hw, e.exclusive,
    fun law => law.of_moves moves claims e.defined e.outside.mode e.drainReports⟩ e.outside

theorem State.Removes.proceeds (r : s.Removes u sel) (o : s.SameOutsideClaimTable u)
    (hd : u.drainReports = s.drainReports) : s.Proceeds u := by
  have sub : u.claims.Sublist s.claims := r.claims ▸ List.filter_sublist
  have moves : ∀ p h, s.RequestMoves u p h := fun p h => by
    rcases r.slots p h with ⟨hs, hn⟩ | ⟨hs, ha⟩
    · refine .same hs fun c ho => ?_
      rw [r.claims, List.mem_filter]
      exact ⟨And.left, fun hc => ⟨hc, by simp [hn c hc ho]⟩⟩
    · refine .closed hs fun c hc => ?_
      rw [r.claims, List.mem_filter] at hc
      by_contra ho
      simp [ha c hc.1 (by simpa using ho)] at hc
  refine State.Advances.within ⟨passes_of_sublist sub, fun p h hw => (moves p h).slot_waiting hw, fun _ h => ?_,
    fun law => law.of_moves moves (passes_of_sublist sub) (fun x => ?_) o.mode hd⟩ o
  · rw [State.exclusiveLaw_iff] at *; exact h.sublist sub
  · rw [r.resource]; exact (State.removeClaims_tableEvent s sel).defined x

/-- Holdings change their hold phase (R61, R62). -/
theorem State.mapHeld_proceeds (s : State) (g : Claim → Claim)
    (hg : ∀ c, g c = c ∨ (c.state.isHeld = true ∧ c.HeldAs (g c))) : s.Proceeds (s.setClaims (s.claims.map g)) := by
  have pass : ∀ c, Claim.Passes (s.setClaims (s.claims.map g)).Serves (g c) c := fun c => by
    rcases hg c with e | ⟨hh, gr, ph, e⟩ <;> rw [e]
    · exact .refl c
    · exact ⟨rfl, rfl, nofun, fun _ => .inl (ClaimState.isAssigned_of_isHeld hh)⟩
  have same : ∀ c, (c.state.handle).isSome = true → g c = c := fun c hh =>
    (hg c).resolve_right fun e => by rw [ClaimState.handle_of_isHeld e.1] at hh; cases hh
  have ofMap : ∀ c, (g c).state.handle.isSome = true → g c = c := fun c hh => by
    rcases hg c with e | ⟨-, gr, ph, e⟩
    · exact e
    · rw [e] at hh; cases hh
  refine (State.setClaims_map_tableEvent s g (fun c => (pass c).key) (fun c => (pass c).mode) fun c ha => ?_).proceeds
    (passes_of_map g fun c _ => pass c) fun p h => .same rfl fun c ho => ?_
  · rcases hg c with e | e
    · rwa [e] at ha
    · exact ClaimState.isAssigned_of_isHeld e.1
  · have hh : c.state.handle.isSome = true := by rw [(Claim.ofRequest_iff.mp ho).2]; rfl
    refine ⟨fun hc => ?_, fun hc => List.mem_map.mpr ⟨c, hc, same c hh⟩⟩
    obtain ⟨d, hd, rfl⟩ := List.mem_map.mp hc
    rwa [ofMap d hh]
end

section
variable (s : State) (p : Port) (h : Handle) (x : ResNo) (sel : Claim → Bool)

theorem State.notify_proceeds (n : Notice) : s.Proceeds (s.notify p n) :=
  (s.notify_tableEvent p n).proceeds (passes_of_sublist (s.notify_claims p n ▸ .refl _)) fun q k =>
    .same (s.slot_notify p n q k) fun c _ => by rw [s.notify_claims]

theorem State.foldl_notify_proceeds {α : Type} (f : α → Port) (g : α → Notice) (xs : List α) (s : State) :
    s.Proceeds (xs.foldl (fun s a => s.notify (f a) (g a)) s) := .foldl _ (fun s a => s.notify_proceeds (f a) (g a)) xs s

theorem State.notifyMode_proceeds (m : DeviceMode) : s.Proceeds (s.notifyMode m) :=
  State.foldl_notify_proceeds (fun p => p) (fun _ => .modeChanged m) _ s

theorem State.revoke_proceeds (reason : RevokeReason) : s.Proceeds (s.revoke x reason sel) := by
  unfold State.revoke
  refine .trans ((State.removeClaims_held_removes s _ fun c _ h => ?_).proceeds
    (State.removeClaims_tableEvent s _).outside (State.removeClaims_tableEvent s _).drainReports)
    (State.foldl_notify_proceeds _ _ _ _)
  simp only [Bool.and_eq_true] at h
  exact h.1.2

/-- The claims of a request leave and its slot is closed. -/
theorem State.closeRequest_proceeds (v : Slot) (hv : v.isOpen = false) :
    s.Proceeds ((s.removeClaims (Claim.ofRequest p h)).setSlot p h v) := by
  have e := State.removeClaims_tableEvent s (Claim.ofRequest p h)
  exact (s.closeRequest_removes p h v hv).proceeds (e.outside.trans (by constructor <;> rfl)) e.drainReports

theorem State.endRequest_proceeds (o : SlotOutcome) (n : Notice) : s.Proceeds (s.endRequest p h o n) := by
  cases ho : (s.slot p h).isOpen with
  | false => rw [State.endRequest_closed s p h o n ho]; exact .refl s
  | true =>
    rw [State.endRequest_open s p h o n ho]
    have ended := s.closeRequest_proceeds p h _ (Slot.ended_isOpen (s.slot p h) o)
    have comm : ∀ t : State, (t.notify p n).setSlot p h ((s.slot p h).ended o) =
        (t.setSlot p h ((s.slot p h).ended o)).notify p n := fun t => by
      unfold State.notify
      split <;> next ho => (simp only [State.isOpen_setSlot, ho]; rfl)
    rw [comm]
    exact ended.trans (State.notify_proceeds _ p n)

theorem State.failAll_proceeds (rs : List (Port × Handle)) (reason : FailReason) : s.Proceeds (s.failAll rs x reason) :=
  .foldl _ (fun s (r : Port × Handle) => s.endRequest_proceeds r.1 r.2 _ _) rs s

theorem State.withdrawAll_proceeds : s.Proceeds s.withdrawAll := by
  refine .foldl _ (fun s p => .foldl _ (fun s h => ?_) _ s) _ s
  split
  · exact s.endRequest_proceeds p h _ _
  · exact .refl s

theorem State.beginYield_proceeds : s.Proceeds (s.beginYield x sel) := by
  unfold State.beginYield
  dsimp only
  split
  · exact .refl s
  · split
    · exact s.revoke_proceeds x _ _
    · refine (s.mapHeld_proceeds _ fun c => ?_).trans (State.foldl_notify_proceeds _ _ _ _)
      split
      · next h =>
        simp only [Bool.and_eq_true] at h
        exact .inr ⟨ClaimState.isHeld_of_isOvertime h.1.2, _, _, rfl⟩
      · exact .inl rfl

theorem State.setOvertime_proceeds : s.Proceeds (s.setOvertime p x) := by
  refine s.mapHeld_proceeds _ fun c => ?_
  split
  · next h =>
    simp only [Claim.isHolding, Bool.and_eq_true] at h
    exact .inr ⟨h.2, _, _, rfl⟩
  · exact .inl rfl

/-- A slot that holds no open request becomes FREE (R24). -/
theorem State.freeClosed_proceeds (ho : (s.slot p h).isOpen = false) : s.Proceeds (s.setSlot p h .free) := by
  have slots : ∀ q k, ¬ (p = q ∧ h = k) → (s.setSlot p h .free).slot q k = s.slot q k := fun q k e => by simp [e]
  refine State.Advances.within ⟨passes_of_sublist (.refl _), fun q k hw => ?_, fun _ h => h, fun law => ?_⟩
    (by constructor <;> rfl)
  · by_cases e : p = q ∧ h = k
    · simp [e, Slot.isWaiting] at hw
    · exact slots q k e
  · refine law.of_moves (fun q k => ?_) (passes_of_sublist (.refl _)) (fun _ => rfl) rfl rfl
    by_cases e : p = q ∧ h = k
    · obtain ⟨rfl, rfl⟩ := e
      refine .closed (by simp [Slot.isOpen]) fun c hc => ?_
      by_contra hr
      obtain ⟨rfl, hh⟩ := Claim.ofRequest_iff.mp (by simpa using hr)
      rw [(law.backed c hc h hh).isOpen] at ho; cases ho
    · exact .same (slots q k e) fun c _ => .rfl

/-! ### Reservation and grant -/

variable {s p h}

/-- R35: a claim of a ready request becomes RESERVED in SERVICE with its session LIVE. -/
theorem State.reserved_proceeds (hr : s.ready p h = true) {f : Filing} {tm : Option Time} (hs : s.slot p h = .waiting f tm) :
    s.Proceeds (s.reserved p h f) := by
  have begun := State.foldl_beginItem_lineOrder p (f.items.map fun i => i.resource)
    (s.setClaims (s.claims.map (Claim.reservedIn p h)))
  have hclaims : (s.reserved p h f).claims = s.claims.map (Claim.reservedIn p h) := begun.1
  have outside : s.SameOutsideClaimTable (s.reserved p h f) :=
    .trans (by constructor <;> rfl) (.trans begun.2.2.1 (by constructor <;> rfl))
  have event : (s.setClaims (s.claims.map (Claim.reservedIn p h))).TableEvent
      ((f.items.map fun i => i.resource).foldl (fun s x => s.beginItem p x) _) :=
    State.TableEvent.foldl (fun s x => s.beginItem p x) (fun s x => State.beginItem_tableEvent s p x) _ _
  have pass : ∀ c ∈ s.claims, Claim.Passes (s.reserved p h f).Serves (c.reservedIn p h) c := fun c hc => by
    refine ⟨c.reservedIn_key p h, c.reservedIn_mode p h, fun hw => ?_, fun ha => ?_⟩
    · by_cases ho : Claim.ofRequest p h c = true
      · rw [Claim.reservedIn_own ho] at hw; cases hw
      · exact Claim.reservedIn_other ho
    · by_cases ho : Claim.ofRequest p h c = true
      · have hcl := s.ready_clear p h hr c hc ho
        simp only [State.clear, Bool.and_eq_true, beq_iff_eq] at hcl
        exact .inr ⟨outside.mode.trans hcl.2, (outside.isLive _).trans hcl.1.2⟩
      · rw [Claim.reservedIn_other ho] at ha; exact .inl ha
  have claims : List.SublistForall₂ (Claim.Passes (s.reserved p h f).Serves) (s.reserved p h f).claims s.claims :=
    hclaims ▸ passes_of_map _ pass
  have moves : ∀ q k, s.RequestMoves (s.reserved p h f) q k := fun q k => by
    by_cases e : p = q ∧ h = k
    · obtain ⟨rfl, rfl⟩ := e
      refine .reserved f tm _ hs (by rw [State.reserved, State.slot_setSlot, if_pos ⟨rfl, rfl⟩]) fun c ho => ?_
      rw [hclaims, List.mem_map]
      constructor
      · rintro ⟨d, hd, rfl⟩
        have hod : Claim.ofRequest p h d = true := by
          by_contra hn
          rw [Claim.reservedIn_other hn] at ho
          exact hn ho
        exact ⟨d, hd, hod, Claim.reservedIn_own hod⟩
      · rintro ⟨d, hd, hod, rfl⟩
        exact ⟨d, hd, Claim.reservedIn_own hod⟩
    · refine .same ?_ fun c ho => ?_
      · rw [State.reserved, State.slot_setSlot, if_neg e, State.slot, State.foldl_beginItem_slots]; rfl
      · rw [hclaims, List.mem_map]
        have other : ∀ d, Claim.ofRequest q k d = true → Claim.ofRequest p h d ≠ true := fun d hd hp =>
          e (by obtain ⟨e1, e2⟩ := Claim.ofRequest_unique hp hd; exact ⟨e1, e2⟩)
        constructor
        · rintro ⟨d, hd, rfl⟩
          by_cases hod : Claim.ofRequest p h d = true
          · rw [Claim.reservedIn_own hod, Claim.ofRequest_iff] at ho
            exact absurd ⟨(Claim.ofRequest_iff.mp hod).1.symm.trans ho.1, Option.some.inj ho.2⟩ e
          · rwa [Claim.reservedIn_other hod]
        · exact fun hc => ⟨c, hc, Claim.reservedIn_other (other c ho)⟩
  refine State.Advances.within ⟨claims, fun q k hw => (moves q k).slot_waiting hw, fun h1 h2 => ?_, fun law =>
    law.of_moves moves claims (fun x => ?_) outside.mode ?_⟩ outside
  · have := (State.reserveClaims_tableEvent s p h hr).exclusive h1 h2
    rw [State.exclusiveLaw_iff] at *
    rwa [hclaims]
  · exact event.defined x
  · exact event.drainReports

/-- The grants of items make of each claim what it was, or a HELD claim of one RESERVED for the request (R40). -/
theorem State.foldl_grantItem_map (p : Port) (h : Handle) (xs : List ResNo) (s : State) :
    ∃ g, (xs.foldl (fun s x => s.grantItem p h x) s).claims = s.claims.map g ∧
      ∀ c, g c = c ∨ (c.state.isReserved = true ∧ Claim.ofRequest p h c = true ∧ c.HeldAs (g c)) := by
  induction xs generalizing s with
  | nil => exact ⟨id, by simp, fun c => .inl rfl⟩
  | cons x xs ih =>
    obtain ⟨g, hg, hc⟩ := ih (s.grantItem p h x)
    rw [List.foldl_cons, hg]
    cases hx : s.resource x with
    | none => exact ⟨g, by simp [State.grantItem, hx], hc⟩
    | some r =>
      rw [State.grantItem_claims s p h x (by simp [hx]), State.grantedClaims, List.map_map]
      refine ⟨_, rfl, fun c => ?_⟩
      by_cases hm : Claim.ofRequest p h c = true ∧ c.state.isReserved = true ∧ c.resource ∈ [x]
      · rw [Function.comp_apply, if_pos hm]
        have := (hc (s.granted c)).resolve_right fun e => by cases e.1
        exact .inr ⟨hm.2.1, hm.1, _, _, this⟩
      · rw [Function.comp_apply, if_neg hm]; exact hc c

theorem State.grant_slot_closed (imm : Option (Port × Handle)) {f : Filing} {pend : List ResNo}
    (hs : s.slot p h = .assembling f pend) : ((State.grant imm s p h).slot p h).isOpen = false := by
  unfold State.grant
  rw [hs]
  dsimp only
  split <;> simp [Slot.isOpen]

theorem State.grant_claims (imm : Option (Port × Handle)) {f : Filing} {pend : List ResNo}
    (hs : s.slot p h = .assembling f pend) :
    (State.grant imm s p h).claims = ((f.items.map fun i => i.resource).foldl (fun s x => s.grantItem p h x) s).claims := by
  unfold State.grant
  rw [hs]
  dsimp only
  split
  · rfl
  · exact State.notify_claims _ p _

theorem State.grant_proceeds (imm : Option (Port × Handle)) (p : Port) (h : Handle) : s.Proceeds (State.grant imm s p h) := by
  have e := State.grant_tableEvent imm s p h
  cases hs : s.slot p h with
  | free | waiting | done =>
    have : State.grant imm s p h = s := by unfold State.grant; rw [hs]
    rw [this]; exact .refl s
  | assembling f pend =>
    have hclaims := State.grant_claims imm hs
    have closed := State.grant_slot_closed imm hs
    have passes : List.SublistForall₂ (Claim.Passes (State.grant imm s p h).Serves) (State.grant imm s p h).claims s.claims := by
      obtain ⟨g, hg, hc⟩ := State.foldl_grantItem_map p h (f.items.map fun i => i.resource) s
      rw [hclaims, hg]
      refine passes_of_map g fun c _ => ?_
      rcases hc c with e | ⟨hres, -, gr, ph, e⟩ <;> rw [e]
      · exact .refl c
      · exact ⟨rfl, rfl, nofun, fun _ => .inl (ClaimState.isAssigned_of_isReserved hres)⟩
    refine State.Advances.within ⟨passes, fun q k hw => ?_, e.exclusive, fun law => ?_⟩ e.outside
    · by_cases ne : p = q ∧ h = k
      · obtain ⟨rfl, rfl⟩ := ne
        revert hw closed; cases (State.grant imm s p h).slot p h <;> simp [Slot.isWaiting, Slot.isOpen]
      · exact State.grant_slot imm s p h q k ne
    · have held : ∀ c ∈ s.claims, Claim.ofRequest p h c = true →
          c.state.isReserved = true ∧ c.resource ∈ f.items.map fun i => i.resource := fun c hc ho => by
        obtain ⟨rfl, hh⟩ := Claim.ofRequest_iff.mp ho
        have := law.backed c hc h hh
        rwa [hs] at this
      obtain ⟨g, hg, hc⟩ := State.foldl_grantItem_claims s p h (f.items.map fun i => i.resource) fun x hx => by
        obtain ⟨i, hi, rfl⟩ := List.mem_map.mp hx
        obtain ⟨c, hcm, -, hr⟩ := law.items p h i (by rw [hs]; exact hi)
        rw [← hr]; exact law.defined c hcm
      rw [hg] at hclaims
      have other : ∀ c, Claim.ofRequest p h c ≠ true → g c = c := fun c ho => by
        have := hc c
        rwa [if_neg fun h => ho h.1] at this
      have own : ∀ c ∈ s.claims, Claim.ofRequest p h c = true → (g c).state.handle = none := fun c hm ho => by
        have := hc c
        rw [if_pos ⟨ho, held c hm ho⟩] at this
        obtain ⟨gr, ph, e⟩ := this
        rw [e]; rfl
      refine law.of_moves (fun q k => ?_) passes e.defined e.outside.mode e.drainReports
      by_cases ne : p = q ∧ h = k
      · obtain ⟨rfl, rfl⟩ := ne
        refine .closed closed fun c hcm => ?_
        by_contra ho
        have ho' := (Claim.ofRequest_iff.mp (by simpa using ho)).2
        rw [hclaims] at hcm
        obtain ⟨d, hd, rfl⟩ := List.mem_map.mp hcm
        by_cases hod : Claim.ofRequest p h d = true
        · rw [own d hd hod] at ho'; cases ho'
        · rw [other d hod] at ho; exact ho (by simpa using hod)
      · refine .same (State.grant_slot imm s p h q k ne) fun c ho => ?_
        have hoc : ∀ d, Claim.ofRequest q k d = true → Claim.ofRequest p h d ≠ true := fun d hd hp =>
          ne (by obtain ⟨e1, e2⟩ := Claim.ofRequest_unique hp hd; exact ⟨e1, e2⟩)
        rw [hclaims, List.mem_map]
        constructor
        · rintro ⟨d, hd, rfl⟩
          by_cases hod : Claim.ofRequest p h d = true
          · rw [Claim.ofRequest_iff, own d hd hod] at ho; cases ho.2
          · rwa [other d hod]
        · exact fun hcm => ⟨c, hcm, other c (hoc c ho)⟩

theorem State.reserve_proceeds (imm : Option (Port × Handle)) (hr : s.ready p h = true) :
    s.Proceeds (State.reserve imm s p h) := by
  have hw := s.ready_waiting p h hr
  cases hs : s.slot p h with
  | waiting f tm =>
    have reserved := s.reserved_proceeds hr hs
    rw [State.reserve_waiting imm hs]
    split
    · exact reserved.trans (State.grant_proceeds imm p h)
    · exact reserved
  | free | assembling | done => rw [hs] at hw; cases hw
end

section
variable (s : State) (p : Port) (h : Handle) (x : ResNo)

theorem State.evaluateWith_proceeds (imm : Option (Port × Handle)) (xs : List ResNo) : s.Proceeds (s.evaluateWith imm xs) :=
  State.evaluateFor_keeps s.Proceeds imm (fun _ _ _ hr a => a.trans (State.reserve_proceeds imm hr)) _ _ s (.refl s)

theorem State.evaluate_proceeds (xs : List ResNo) : s.Proceeds (s.evaluate xs) := s.evaluateWith_proceeds none xs

theorem State.endOfEvent_proceeds : s.Proceeds s.endOfEvent := by
  refine State.Advances.within (.stand (by simp) (fun p h => by simp) fun law => ?_) s.endOfEvent_outside
  refine law.congr (by simp) (fun p h => by simp) (fun c _ h => by simpa using h) (fun h => law.setup (by simpa using h)) fun h => ?_
  rw [State.endOfEvent_drainReports] at h
  split at h
  · next he =>
    have : s.claims = [] := by
      have hf : Config.poolSize - s.claims.length = Config.poolSize := he.2
      have hp : 0 < Config.poolSize := by decide
      exact List.length_eq_zero_iff.mp (by omega)
    simp [he.1, this]
  · simpa using law.drained h

theorem State.cancelRequest_proceeds : s.Proceeds (s.cancelRequest p h) :=
  (s.closeRequest_proceeds p h .free rfl).trans (State.evaluate_proceeds _ _)

theorem State.release_proceeds : s.Proceeds (s.removeAndEvaluate (Claim.isHolding p x)) := by
  refine .trans ((State.removeClaims_held_removes s _ fun c _ hs => ?_).proceeds
    (State.removeClaims_tableEvent s _).outside (State.removeClaims_tableEvent s _).drainReports) (State.evaluate_proceeds _ _)
  simp only [Claim.isHolding, Bool.and_eq_true] at hs
  exact hs.2

/-! ### The supervisor's requests and the Line Unit's reports -/

theorem State.forceReleaseEvent_proceeds : s.Proceeds (s.forceReleaseEvent x) :=
  ((s.revoke_proceeds x _ _).trans (State.failAll_proceeds _ x _ _)).trans (State.evaluate_proceeds _ _)

theorem State.faultResource_proceeds (reason : FaultReason) : s.Proceeds (s.faultResource x reason) :=
  (State.faultResource_lineOrder s x reason).proceeds

theorem State.disableEvent_proceeds : s.Proceeds (s.disableEvent x) :=
  (((s.faultResource_proceeds x _).trans (State.revoke_proceeds _ x _ _)).trans (State.failAll_proceeds _ x _ _)).trans
    (State.evaluate_proceeds _ _)

theorem State.clearFaultEvent_proceeds : s.Proceeds (s.clearFaultEvent x) := by
  unfold State.clearFaultEvent
  split
  · exact (State.cool_lineOrder s x).proceeds.trans (State.evaluate_proceeds _ _)
  · next hk => exact (State.setToken_lineOrder s x _ _ _ hk).proceeds.trans (State.evaluate_proceeds _ _)
  · exact .refl s

theorem State.dropReport_proceeds : s.Proceeds (s.dropReport x) := .same rfl rfl (fun _ => rfl) rfl rfl fun _ h => h

theorem State.confirmationFault_proceeds (reason : FaultReason) : s.Proceeds (s.confirmationFault x reason) :=
  ((s.faultResource_proceeds x _).trans (State.failAll_proceeds _ x _ _)).trans (State.evaluate_proceeds _ _)

theorem State.completeItem_proceeds : s.Proceeds (s.completeItem p h x) := by
  unfold State.completeItem
  split
  · next f pend hs =>
    have completed : s.Proceeds (s.setSlot p h (.assembling f (pend.erase x))) := by
      refine (State.setSlot_tableEvent s p h _ (by rw [hs]; rfl)).proceeds (passes_of_sublist (.refl _)) fun q k => ?_
      by_cases e : p = q ∧ h = k
      · obtain ⟨rfl, rfl⟩ := e
        exact .completed f pend (pend.erase x) hs (by simp) fun c _ => .rfl
      · exact .same (by simp [e]) fun c _ => .rfl
    split
    · dsimp only
      split
      · exact (completed.trans (State.grant_proceeds none p h)).trans (State.evaluate_proceeds _ _)
      · exact completed
    · exact .refl s
  · exact .refl s

theorem State.onGuardElapsed_proceeds : s.Proceeds (State.onGuardElapsed x s) := by
  unfold State.onGuardElapsed
  split
  · exact (State.setLineState_lineOrder s x _).proceeds
  · exact (State.engageOrVerify_lineOrder s x _).proceeds.trans (State.evaluate_proceeds _ _)
  · exact .refl s

theorem State.onReleaseSeen_proceeds : s.Proceeds (State.onReleaseSeen x s) := by
  unfold State.onReleaseSeen
  split
  · exact (s.beginEngage_lineOrder x _).proceeds.trans (State.evaluate_proceeds _ _)
  · exact .refl s

theorem State.onVerifyTimeout_proceeds : s.Proceeds (State.onVerifyTimeout x s) := by
  unfold State.onVerifyTimeout
  split
  · exact s.confirmationFault_proceeds x _
  · exact .refl s

theorem State.onEngagedSeen_proceeds : s.Proceeds (State.onEngagedSeen x s) := by
  unfold State.onEngagedSeen
  split
  · exact s.completeItem_proceeds _ _ x
  · exact .refl s

theorem State.onEngageTimeout_proceeds : s.Proceeds (State.onEngageTimeout x s) := by
  unfold State.onEngageTimeout
  split
  · exact s.confirmationFault_proceeds x _
  · exact .refl s

theorem State.onConfirmationLost_proceeds : s.Proceeds (State.onConfirmationLost x s) := by
  unfold State.onConfirmationLost
  split
  · exact ((s.faultResource_proceeds x _).trans (State.revoke_proceeds _ x _ _)).trans (State.evaluate_proceeds _ _)
  · exact s.confirmationFault_proceeds x _
  · exact .refl s

theorem State.takeReport_proceeds (k : LineReportKind) (act : State → State) (ha : ∀ u : State, u.Proceeds (act u)) :
    s.Proceeds (s.takeReport x k act) := by
  unfold State.takeReport
  split
  · exact .refl s
  · refine .trans ?_ (State.endOfEvent_proceeds _)
    split
    · exact (s.dropReport_proceeds x).trans (ha _)
    · exact s.dropReport_proceeds x

/-! ### Sessions -/

theorem State.setPort_proceeds (v : PortInterface) : s.Proceeds (s.setPort p v) := .same rfl rfl (fun _ => rfl) rfl rfl fun _ h => h

theorem State.SessionEnd.serves {s t : State} {p : Port} {st : SessionState} (a : s.SessionEnd t p st) :
    ∀ c ∈ t.claims, s.Serves c.owner → t.Serves c.owner := fun c hc h =>
  ⟨a.supervision.mode.trans h.1, by rw [State.isLive, a.sessions _ (a.noClaims c hc)]; exact h.2⟩

theorem State.endSession_proceeds (st : SessionState) (hst : st.isOpen = false) : s.Proceeds (s.endSession p st) := by
  refine ⟨?_, (s.endSession_spec p st hst).serves⟩
  unfold State.endSession
  dsimp only
  have e := State.removeClaims_tableEvent (s.setSessionState p st) (Claim.ofPort p)
  have reclaimed := ((s.setSessionState p st).reclaim_removes p).proceeds (e.outside.trans (by constructor <;> rfl)) e.drainReports
  have cleared : ∀ t : State, t.Proceeds ((t.clearQueue p).dropFrames p) := fun t =>
    .same rfl rfl (fun _ => rfl) rfl rfl fun _ h => h
  exact (((reclaimed.trans (State.evaluate_proceeds _ _)).trans (cleared _)).trans (State.endOfEvent_proceeds _)).advances.after
    rfl rfl fun law => law.congr rfl (fun _ _ => rfl) (fun _ _ h => h) law.setup law.drained

theorem State.severPort_proceeds (reason : SeverReason) : s.Proceeds (s.severPort p reason) := by
  unfold State.severPort
  split
  · exact s.endSession_proceeds p _ rfl
  · exact .refl s

theorem State.isLive_setSession (v : Session) (hl : v.state.isLive = true) (q : Port) (h : s.isLive q = true) :
    (s.setSession p v).isLive q = true := by
  rw [State.isLive, State.session_setSession]
  split
  · exact hl
  · exact h

theorem State.openSession_proceeds (a b : Word16) : s.Proceeds (s.openSession p a b) :=
  .same rfl rfl (fun _ => rfl) rfl rfl (s.isLive_setSession p _ rfl)

theorem State.recover_proceeds (o : OpenSession) : s.Proceeds (s.recover p o) :=
  .same rfl rfl (fun _ => rfl) rfl rfl (s.isLive_setSession p _ rfl)

theorem State.limitsEvent_proceeds (a b c : Nat) : s.Proceeds (s.limitsEvent a b c) := by
  unfold State.limitsEvent
  refine .trans (u := { s with threshold := a, recovery := b, filterTime := c }) (.same rfl rfl (fun _ => rfl) rfl rfl fun _ h => h)
    (.foldl _ (fun s k => ?_) _ _)
  unfold State.applyLimits
  split
  · split
    · exact s.severPort_proceeds k _
    · split
      · exact s.recover_proceeds k _
      · exact .refl s
  · exact .refl s

theorem State.Seen.proceeds {s t : State} {p : Port} (a : s.Seen t p) : s.Proceeds t :=
  .same a.table.claims a.table.slots (fun x => by simp [State.resource, a.table.resources]) a.supervision.mode a.drainReports
    fun q h => (a.isLive q).trans h

/-! ### Modes -/

/-- The claims and slots stand through a change of mode. -/
theorem State.changeMode_advances {m : DeviceMode} (hm : m ≠ .setup) : s.Advances (s.changeMode m) :=
  .stand rfl (fun _ _ => rfl) fun law => law.congr rfl (fun _ _ => rfl) (fun _ _ h => h) (fun h => absurd h hm) fun h => by
    simp [State.changeMode] at h

/-- R148, R149: the mode becomes SETUP where no claim is left. -/
theorem State.drainToSetup_advances (hl : s.TableLaw → s.claims = []) (hd : s.TableLaw → true ∈ s.drainReports → s.claims = []) :
    s.Advances s.drainToSetup :=
  State.Advances.trans (u := { s with mode := .setup })
    (.stand rfl (fun _ _ => rfl) fun law => law.congr rfl (fun _ _ => rfl) (fun _ _ h => h) (fun _ => hl law)
      fun h => ⟨nofun, hd law h⟩) (State.notifyMode_proceeds _ _)

theorem State.setModeEvent_advances (m : DeviceMode) : s.Advances (s.setModeEvent m) := by
  have service : s.Advances s.enterService :=
    ((s.changeMode_advances (by simp)).trans (State.notifyMode_proceeds _ _)).trans (State.evaluate_proceeds _ _)
  have quiesce : s.Advances s.enterQuiesce := by
    have drain := (((s.changeMode_advances (m := .quiesce) (by simp)).trans (State.notifyMode_proceeds _ .quiesce)).trans
      (State.withdrawAll_proceeds _)).trans (State.evaluate_proceeds _ (s.losers fun c => c.state.isWaiting))
    unfold State.enterQuiesce
    dsimp only
    split
    · next he =>
      have empty : (State.evaluate (State.withdrawAll (State.notifyMode (s.changeMode .quiesce) .quiesce))
          (s.losers fun c => c.state.isWaiting)).claims = [] := by
        have hp : 0 < Config.poolSize := by decide
        rw [State.freeCount] at he
        exact List.length_eq_zero_iff.mp (by omega)
      refine State.Advances.trans drain ⟨State.drainToSetup_advances _ (fun _ => empty) fun _ _ => empty, fun c hc => ?_⟩
      have hc := (State.notifyMode_table _ _).claims ▸ hc
      rw [show _ = [] from empty] at hc; cases hc
    · exact drain
  unfold State.setModeEvent
  split
  · exact service
  · exact service
  · exact quiesce
  · exact .stand rfl (fun _ _ => rfl) id

theorem State.restartEvent_advances : s.Advances s.restartEvent :=
  .of_empty s.restartEvent_claims (fun p h => by rw [State.restartEvent_slot]; rfl) fun h =>
    absurd h (State.changeMode_drainReports _ _)
end

end Sys2Proof.Machine
end

section
/-! ## What every command makes of the claims -/

namespace Sys2Proof.Machine

/-- Steps 1 to 3 of the acceptance of a CLAIM that has passed its checks (R28, R29, R30). -/
structure State.Files (s u : State) (p : Port) (h : Handle) (f : Filing) (tm : Option Time) : Prop where
  defined : ∀ i ∈ f.items, (s.resource i.resource).isSome = true
  free : s.slot p h = .free
  distinct : (f.items.map fun i => i.resource).Nodup
  unclaimed : ∀ i ∈ f.items, ∀ c ∈ s.claims, c.owner = p → c.resource ≠ i.resource
  nonempty : f.items ≠ []
  room : s.claims.length + f.items.length ≤ Config.poolSize
  service : s.mode = .service
  claims : u.claims = s.claims ++ f.items.map fun i =>
    { owner := p, resource := i.resource, mode := i.mode, state := .waiting h }
  slot : ∀ q k, u.slot q k = if p = q ∧ h = k then .waiting f tm else s.slot q k
  resource : ∀ x, (u.resource x).isSome = (s.resource x).isSome
  mode : u.mode = s.mode
  drainReports : u.drainReports = s.drainReports

/-- What a command makes of the claims, slots and laws: an advance, behind the filing of a request or not. -/
inductive State.ClaimStep (s t : State) : Prop where
  | advances (a : s.Advances t)
  | files {u : State} {p : Port} {h : Handle} {f : Filing} {tm : Option Time} (filed : s.Files u p h f tm) (a : u.Advances t)

/-- The claims, slots, resources and mode, and the drain's reports, are the same. -/
structure State.SameTable (s u : State) : Prop where
  claims : u.claims = s.claims
  slots : u.slots = s.slots
  resources : u.resources = s.resources
  mode : u.mode = s.mode
  drainReports : u.drainReports = s.drainReports

section
variable {s t u v : State} {p : Port} {h : Handle} {f : Filing} {tm : Option Time}

/-! ### Filing -/

theorem State.SameTable.slot (e : s.SameTable u) (q : Port) (k : Handle) : u.slot q k = s.slot q k := by
  simp [State.slot, e.slots]

theorem State.SameTable.resource (e : s.SameTable u) (x : ResNo) : u.resource x = s.resource x := by
  simp [State.resource, e.resources]

theorem State.SameTable.tableLaw (e : s.SameTable u) (law : s.TableLaw) : u.TableLaw :=
  law.congr e.claims e.slot (fun c _ h => by rwa [e.resource]) (fun h => law.setup (e.mode ▸ h))
    fun h => e.mode ▸ law.drained (e.drainReports ▸ h)

theorem State.Files.after (a : u.Files v p h f tm) (e : s.SameTable u) : s.Files v p h f tm where
  defined i hi := by simpa only [e.resource] using a.defined i hi
  free := by simpa only [e.slot] using a.free
  distinct := a.distinct
  unclaimed := e.claims ▸ a.unclaimed
  nonempty := a.nonempty
  room := e.claims ▸ a.room
  service := e.mode ▸ a.service
  claims := e.claims ▸ a.claims
  slot q k := by simpa only [e.slot] using a.slot q k
  resource x := by simpa only [e.resource] using a.resource x
  mode := a.mode.trans e.mode
  drainReports := a.drainReports.trans e.drainReports

theorem State.ClaimStep.after (b : u.ClaimStep t) (e : s.SameTable u) : s.ClaimStep t := by
  cases b with
  | advances a => exact .advances (a.after e.claims e.slots e.tableLaw)
  | files filed a => exact .files (filed.after e) a

theorem State.ClaimStep.trans (a : s.ClaimStep u) (b : u.Proceeds t) : s.ClaimStep t := by
  cases a with
  | advances a => exact .advances (a.trans b)
  | files filed a => exact .files filed (a.trans b)

theorem State.Proceeds.step (a : s.Proceeds t) : s.ClaimStep t := .advances a.advances

/-- A CLAIM that has passed its checks names an item, and the pool has room for its claims (R27, R29). -/
theorem State.claimChecks_room {f : Frame} (h : ∀ c ∈ s.claimChecks p f, c.1 = false) :
    s.mode = .service ∧ f.items ≠ [] ∧ s.claims.length + f.items.length ≤ Config.poolSize := by
  simp only [State.claimChecks, List.mem_append, List.mem_cons, or_imp, forall_and, forall_eq] at h
  obtain ⟨-, hm, -, hn, -, -, -, -, -, -, -, -, -, hroom, -⟩ := h
  simp only [Bool.or_eq_false_iff, decide_eq_false_iff_not, bne_eq_false_iff_eq] at hn
  obtain ⟨⟨h0, -⟩, hcount⟩ := hn
  have hlen : f.items.length = (f.byte 3).toNat := by simp [Frame.items, Frame.itemBytes, hcount]
  refine ⟨State.modeCheck_passed hm, fun e => h0 (by rw [← hlen, e]; rfl), ?_⟩
  have fits : ¬ (s.freeCount < f.items.length) := of_decide_eq_false hroom
  have some : 0 < f.items.length := by omega
  unfold State.freeCount at fits
  omega

/-- The filing of a CLAIM that has passed its checks (R30). -/
theorem State.claimChecks_files {f : Frame} (hc : ∀ c ∈ s.claimChecks p f, c.1 = false) :
    s.Files (s.fileRequest p (handleOf (f.byte 0)) f.items (f.word 1)) p (handleOf (f.byte 0))
      { incarnation := s.incarnation p, items := f.items, waitLimit := f.word 1 } (s.waitTimer (f.word 1)) := by
  have fileable := State.claimChecks_fileable hc
  obtain ⟨hm, hne, hroom⟩ := State.claimChecks_room hc
  exact ⟨fileable.defined, fileable.free, fileable.distinct, fileable.unclaimed, hne, hroom, hm, rfl,
    fun q k => by rw [State.fileRequest, State.slot_setSlot]; rfl, fun _ => rfl, rfl, rfl⟩

theorem claimVerdict_files {f : Frame} {st : Status} {body : List Byte} (hv : claimVerdict p f s = .executed st body t) :
    ∃ u h g tm, s.Files u p h g tm ∧ u.Proceeds t := by
  obtain ⟨hc, hv⟩ := Verdict.checked_executed hv
  have e : t = s.accept p (handleOf (f.byte 0)) f.items (f.word 1) := by
    unfold acceptedAnswer at hv
    split at hv <;> cases hv <;> rfl
  rw [e]
  exact ⟨_, _, _, _, State.claimChecks_files hc,
    (State.Proceeds.foldl _ (fun s x => s.beginYield_proceeds x _) _ _).trans (State.evaluateWith_proceeds _ _ _)⟩

/-! ### Requests -/

/-- In SETUP no claim exists, so that a resource can be redefined (R145). -/
theorem State.redefine_advances (hm : s.mode = .setup) (x : ResNo) (v : Option Resource) :
    s.Advances ((s.setResource x v).staleReports x) :=
  .stand rfl (fun _ _ => rfl) fun law => law.congr rfl (fun _ _ => rfl)
    (fun c hc => by rw [law.setup hm] at hc; cases hc) law.setup law.drained

theorem State.Proceeds.untouched (hc : t.claims = s.claims) (hs : t.slots = s.slots) (hr : t.resources = s.resources)
    (hm : t.mode = s.mode) (hd : t.drainReports = s.drainReports) (hl : ∀ p, t.isLive p = s.isLive p) : s.Proceeds t :=
  .same hc hs (fun x => by simp [State.resource, hr]) hm hd fun p h => (hl p).trans h

theorem State.untouched_step (hc : t.claims = s.claims) (hs : t.slots = s.slots) (hr : t.resources = s.resources)
    (hm : t.mode = s.mode) (hd : t.drainReports = s.drainReports) (hl : ∀ p, t.isLive p = s.isLive p) : s.ClaimStep t :=
  (State.Proceeds.untouched hc hs hr hm hd hl).step

/-- An executed request, but a CLAIM, is an advance. -/
theorem RequestKind.verdict_advances {k : RequestKind} (hk : k ≠ .claim) {f : Frame} {st : Status} {body : List Byte}
    (hv : k.verdict p f s = .executed st body t) : s.Advances t := by
  cases k with
  | claim => exact absurd rfl hk
  | join =>
    obtain ⟨-, h⟩ := Verdict.checked_executed hv; cases h
    exact ((s.severPort_proceeds p .rejoin).trans (State.openSession_proceeds _ p _ _)).advances
  | leave =>
    obtain ⟨-, h⟩ := Verdict.checked_executed hv; cases h
    exact (s.endSession_proceeds p .idle rfl).advances
  | touch | sessionInfo | resourceInfo | holdings | partInfo =>
    obtain ⟨-, h⟩ := Verdict.checked_executed hv; cases h
    exact (State.Proceeds.refl s).advances
  | setRate | fetch | setSupervisor =>
    obtain ⟨-, h⟩ := Verdict.checked_executed hv; cases h
    refine State.Proceeds.advances ?_
    exact .untouched rfl rfl rfl rfl rfl fun _ => rfl
  | cancel =>
    obtain ⟨-, h⟩ := Verdict.checked_executed hv; cases h
    exact (s.cancelRequest_proceeds p _).advances
  | release =>
    obtain ⟨-, h⟩ := Verdict.checked_executed hv; cases h
    exact (s.release_proceeds p _).advances
  | define =>
    obtain ⟨hc, h⟩ := Verdict.checked_executed hv; cases h
    simp only [List.mem_append, List.mem_cons, or_imp, forall_and, forall_eq] at hc
    exact State.redefine_advances (State.modeCheck_passed hc.2.1) _ _
  | undefine =>
    obtain ⟨hc, h⟩ := Verdict.checked_executed hv; cases h
    simp only [List.mem_append, List.mem_cons, or_imp, forall_and, forall_eq] at hc
    exact State.redefine_advances (State.modeCheck_passed hc.2.1) _ _
  | setLimits =>
    obtain ⟨-, h⟩ := Verdict.checked_executed hv; cases h
    exact (s.limitsEvent_proceeds _ _ _).advances
  | setMode =>
    obtain ⟨-, h⟩ := Verdict.checked_executed hv; cases h
    exact s.setModeEvent_advances _
  | forceRelease =>
    obtain ⟨-, h⟩ := Verdict.checked_executed hv; cases h
    exact (s.forceReleaseEvent_proceeds _).advances
  | disable =>
    obtain ⟨-, h⟩ := Verdict.checked_executed hv; cases h
    exact (s.disableEvent_proceeds _).advances
  | clearFault =>
    obtain ⟨-, h⟩ := Verdict.checked_executed hv; cases h
    exact (s.clearFaultEvent_proceeds _).advances
  | sever =>
    obtain ⟨-, h⟩ := Verdict.checked_executed hv; cases h
    exact (s.severPort_proceeds _ .supervisor).advances
  | restart =>
    obtain ⟨-, h⟩ := Verdict.checked_executed hv; cases h
    exact s.restartEvent_advances
end

section
variable (s : State)

theorem State.taking_sameTable (k : RequestKind) (p : Port) (f : Frame) : s.SameTable (s.taking k p f) := by
  constructor <;> simp

theorem State.place_proceeds (p : Port) (f : Frame) (st : Status) (body : List Byte) (ex : Bool) :
    s.Proceeds (s.place p f st body ex) := .untouched rfl rfl rfl rfl rfl fun _ => rfl

theorem State.endOfServe_proceeds (o : Owner) : s.Proceeds (s.endOfServe o) := by
  cases o with
  | claimTable => exact s.endOfEvent_proceeds
  | sessionController | noticeStore | supervision | portInterface => exact .refl s

theorem RequestKind.claimStep (k : RequestKind) (p : Port) : s.ClaimStep (s.serve k p (k.verdict p)) := by
  by_cases h : ∃ f, s.Offered k p f
  · obtain ⟨f, hf⟩ := h
    rw [State.serve_offered hf]
    refine State.ClaimStep.after (u := s.taking k p f) ?_ (s.taking_sameTable k p f)
    cases hv : k.verdict p f (s.taking k p f) with
    | refused st => exact ((State.endOfServe_proceeds _ _).trans (State.place_proceeds _ p f st _ _)).step
    | executed st body t =>
      have answered := (State.endOfServe_proceeds t k.owner).trans (State.place_proceeds _ p f st body true)
      by_cases hk : k = .claim
      · subst hk
        obtain ⟨u, h, g, tm, filed, hp⟩ := claimVerdict_files hv
        exact .files filed (hp.trans answered).advances
      · exact .advances ((RequestKind.verdict_advances hk hv).trans answered)
  · rw [State.serve_not_offered fun f hf => h ⟨f, hf⟩]
    exact (State.Proceeds.refl s).step

/-! ### Internal events -/

theorem State.passTo_sameTable (T : Time) : s.SameTable (s.passTo T) := ⟨rfl, rfl, rfl, rfl, rfl⟩

theorem State.refl_step : s.ClaimStep s := (State.Proceeds.refl s).step

variable (p : Port)

theorem State.setSessionState_advances (st : SessionState) : s.Advances (s.setSessionState p st) :=
  .stand rfl (fun _ _ => rfl) (State.SameTable.tableLaw ⟨rfl, rfl, rfl, rfl, rfl⟩)

theorem State.seeFrame_proceeds (inc : Byte) : s.Proceeds (s.seeFrame p inc) := (s.seeFrame_seen p inc).proceeds

theorem State.takeFrame_proceeds (f : Frame) : s.Proceeds (s.takeFrame p f) := by
  unfold State.takeFrame
  split
  · exact s.setPort_proceeds p _
  · split
    · exact s.place_proceeds p f _ _ _
    · exact s.setPort_proceeds p _

theorem windowExpiry_claimStep : ∃ t, execWindowExpiry p s = .next t ∧ s.ClaimStep t := by
  refine ⟨_, rfl, ?_⟩
  split
  · next o _ =>
    refine State.ClaimStep.after ?_ (s.passTo_sameTable o.windowEnds)
    unfold State.missFirst
    split
    · exact (State.severPort_proceeds _ p _).step
    · exact .advances (State.setSessionState_advances _ p _)
  · next o l _ =>
    refine State.ClaimStep.after (u := s.passTo o.windowEnds) ?_ (s.passTo_sameTable o.windowEnds)
    split
    · unfold State.windowShown
      split
      · exact (State.recover_proceeds _ p _).step
      · exact .advances (State.setSessionState_advances _ p _)
    · unfold State.windowMissed
      split
      · exact (State.severPort_proceeds _ p _).step
      · exact .advances (State.setSessionState_advances _ p _)
  · exact s.refl_step

theorem severInputFiltered_claimStep : ∃ t, execSeverInputFiltered p s = .next t ∧ s.ClaimStep t := by
  refine ⟨_, rfl, ?_⟩
  split
  · exact s.refl_step
  · next T _ =>
    have settled : s.Proceeds ((s.passTo T).setSever p s.severInputs[p].settle) := .untouched rfl rfl rfl rfl rfl fun _ => rfl
    dsimp only
    split
    · exact (settled.trans (State.severPort_proceeds _ p _)).step
    · exact settled.step

theorem breakDetected_claimStep : ∃ t, execBreakDetected p s = .next t ∧ s.ClaimStep t := by
  refine ⟨_, rfl, ?_⟩
  split
  · next since _ =>
    exact ((State.setPort_proceeds _ p _).trans (State.severPort_proceeds _ p _)).step.after
      (s.passTo_sameTable (since + Config.breakUnits))
  · exact s.refl_step

theorem liveAgain_claimStep : ∃ t, execLiveAgain p s = .next t ∧ s.ClaimStep t := by
  refine ⟨_, rfl, ?_⟩
  split
  · exact s.refl_step
  · have taken : s.Proceeds { s with liveReports := s.liveReports.eraseP (·.port == p) } :=
      .untouched rfl rfl rfl rfl rfl fun _ => rfl
    exact ((taken.trans (State.evaluate_proceeds _ _)).trans (State.endOfEvent_proceeds _)).step

theorem State.acknowledge_proceeds (a : AckEvent) : s.Proceeds (s.acknowledge a) := by
  unfold State.acknowledge
  split
  · next hd =>
    split
    · exact s.freeClosed_proceeds _ _ (by rw [hd]; rfl)
    · exact .refl s
  · exact .refl s

theorem outcomeAcknowledged_claimStep (h : Handle) : ∃ t, execOutcomeAcknowledged p h s = .next t ∧ s.ClaimStep t := by
  refine ⟨_, rfl, ?_⟩
  split
  · exact s.refl_step
  · next a _ =>
    have taken : s.Proceeds { s with ackEvents := s.ackEvents.eraseP fun a => a.port == p && a.handle == h } :=
      .untouched rfl rfl rfl rfl rfl fun _ => rfl
    exact ((taken.trans (State.acknowledge_proceeds _ a)).trans (State.endOfEvent_proceeds _)).step

/-- R149: a current report that finds the mode QUIESCE finds the pool empty. -/
theorem noClaimsRemain_claimStep : ∃ t, execNoClaimsRemain s = .next t ∧ s.ClaimStep t := by
  refine ⟨_, rfl, ?_⟩
  split
  · exact s.refl_step
  · next current rest hd =>
    have taken : s.TableLaw → ({ s with drainReports := rest } : State).TableLaw := fun law =>
      law.congr rfl (fun _ _ => rfl) (fun _ _ h => h) law.setup fun h => law.drained (by rw [hd]; exact List.mem_cons_of_mem _ h)
    dsimp only
    split
    · next hcur =>
      have empty : s.TableLaw → s.claims = [] := fun law => (law.drained (by rw [hd, hcur.1]; simp)).2
      refine .advances (.stand (State.notifyMode_table _ _).claims (fun q k => ?_) fun law => ?_)
      · exact congrArg (fun v : Vector (Vector Slot 8) 6 => v[q][k]) (State.notifyMode_table _ _).slots
      · exact (State.drainToSetup_advances { s with drainReports := rest } (fun _ => empty law) fun _ _ => empty law).law (taken law)
    · exact .advances (.stand rfl (fun _ _ => rfl) taken)

theorem waitExpiry_claimStep (h : Handle) : ∃ t, execWaitExpiry p h s = .next t ∧ s.ClaimStep t := by
  refine ⟨_, rfl, ?_⟩
  split
  · next T _ =>
    exact (((State.endRequest_proceeds _ p h _ _).trans (State.evaluate_proceeds _ _)).trans
      (State.endOfEvent_proceeds _)).step.after (s.passTo_sameTable T)
  · exact s.refl_step

theorem holdExpiry_claimStep (x : ResNo) : ∃ t, execHoldExpiry p x s = .next t ∧ s.ClaimStep t := by
  refine ⟨_, rfl, ?_⟩
  split
  · next T _ =>
    have overtime := (s.passTo T).setOvertime_proceeds p x
    dsimp only
    refine State.ClaimStep.after (State.ClaimStep.trans ?_ (State.endOfEvent_proceeds _)) (s.passTo_sameTable T)
    split
    · exact overtime.step
    · exact ((overtime.trans (State.beginYield_proceeds _ x _)).trans (State.evaluate_proceeds _ _)).step
  · exact s.refl_step

theorem graceExpiry_claimStep (x : ResNo) : ∃ t, execGraceExpiry p x s = .next t ∧ s.ClaimStep t := by
  refine ⟨_, rfl, ?_⟩
  split
  · next T _ =>
    exact (((State.revoke_proceeds _ x _ _).trans (State.evaluate_proceeds _ _)).trans
      (State.endOfEvent_proceeds _)).step.after (s.passTo_sameTable T)
  · exact s.refl_step

theorem phaseTimerExpiry_claimStep (x : ResNo) : ∃ t, execPhaseTimerExpiry x s = .next t ∧ s.ClaimStep t := by
  refine ⟨_, rfl, ?_⟩
  split
  · next T k _ => exact ((s.passTo T).phaseReport_lineOrder x .quiet k).proceeds.step.after (s.passTo_sameTable T)
  · exact s.refl_step

theorem State.meetLevel_proceeds (c : ConfNo) (x : ResNo) : s.Proceeds (State.meetLevel c s x) := by
  rcases s.meetLevel_cases x c with e | ⟨d, st, lu, k, ph, b, -, -, e⟩ <;> rw [e]
  · exact .refl s
  · exact (s.phaseReport_lineOrder x ph k).proceeds

theorem confirmFilterChange_claimStep (c : ConfNo) : ∃ t, execConfirmFilterChange c s = .next t ∧ s.ClaimStep t := by
  refine ⟨_, rfl, ?_⟩
  split
  · exact s.refl_step
  · next T _ =>
    have changed : s.Proceeds ((s.passTo T).setConfirm c s.confirmInputs[c].settle) := .untouched rfl rfl rfl rfl rfl fun _ => rfl
    exact (changed.trans (.foldl _ (fun s x => s.meetLevel_proceeds c x) _ _)).step

theorem pinReset_claimStep : ∃ t, execPinReset s = .next t ∧ s.ClaimStep t := by
  refine ⟨_, rfl, .advances (.of_empty rfl (fun p h => ?_) nofun)⟩
  simp [State.afterReset, State.slot, Slot.isOpen]

theorem frameReport_claimStep : ∃ t, execFrameReport p s = .next t ∧ s.ClaimStep t := by
  refine ⟨_, rfl, ?_⟩
  split
  · exact ((s.setPort_proceeds p _).trans (State.seeFrame_proceeds _ p _)).step
  · exact s.refl_step

theorem takeRequest_claimStep : ∃ t, execTakeRequest p s = .next t ∧ s.ClaimStep t := by
  refine ⟨_, rfl, ?_⟩
  split
  · split
    · exact ((s.setPort_proceeds p _).trans (State.takeFrame_proceeds _ p _)).step
    · exact s.refl_step
  · exact s.refl_step

theorem frameComplete_claimStep : ∃ t, execFrameComplete p s = .next t ∧ s.ClaimStep t := by
  refine ⟨_, rfl, ?_⟩
  split
  · exact (s.setPort_proceeds p _).step
  · exact s.refl_step

theorem characterReceived_claimStep (c : Byte) : ∃ t, execCharacterReceived p c s = .next t ∧ s.ClaimStep t := by
  refine ⟨_, rfl, ?_⟩
  split
  · exact (s.setPort_proceeds p _).step
  · exact s.refl_step

theorem framingError_claimStep : ∃ t, execFramingError p s = .next t ∧ s.ClaimStep t := by
  refine ⟨_, rfl, ?_⟩
  split
  · exact (s.setPort_proceeds p _).step
  · exact s.refl_step

theorem silenceLimit_claimStep : ∃ t, execSilenceLimit p s = .next t ∧ s.ClaimStep t := by
  refine ⟨_, rfl, ?_⟩
  split
  · next T _ => exact (State.setPort_proceeds _ p _).step.after (s.passTo_sameTable T)
  · exact s.refl_step

theorem replySent_claimStep : ∃ t, execReplySent p s = .next t ∧ s.ClaimStep t := by
  refine ⟨_, rfl, ?_⟩
  split
  · exact (State.setPort_proceeds _ p _).step.after (s.passTo_sameTable _)
  · exact s.refl_step
end

theorem exec_claimStep (i : Instr) (s : State) : ∃ t, exec i s = .next t ∧ s.ClaimStep t := by
  have request : ∀ (k : RequestKind) p, ∃ t, exec (k.command p) s = .next t ∧ s.ClaimStep t := fun k p =>
    ⟨_, exec_command k p s, k.claimStep s p⟩
  have report : ∀ (x : ResNo) (k : LineReportKind) (act : State → State), (∀ u : State, u.Proceeds (act u)) →
      s.ClaimStep (s.takeReport x k act) := fun x k act ha => (s.takeReport_proceeds x k act ha).step
  cases i with
  | join p => exact request .join p
  | leave p => exact request .leave p
  | touch p => exact request .touch p
  | setRate p => exact request .setRate p
  | claim p => exact request .claim p
  | cancel p => exact request .cancel p
  | release p => exact request .release p
  | fetch p => exact request .fetch p
  | sessionInfo p => exact request .sessionInfo p
  | resourceInfo p => exact request .resourceInfo p
  | holdings p => exact request .holdings p
  | partInfo p => exact request .partInfo p
  | define p => exact request .define p
  | undefine p => exact request .undefine p
  | setLimits p => exact request .setLimits p
  | setMode p => exact request .setMode p
  | setSupervisor p => exact request .setSupervisor p
  | forceRelease p => exact request .forceRelease p
  | disable p => exact request .disable p
  | clearFault p => exact request .clearFault p
  | sever p => exact request .sever p
  | restart p => exact request .restart p
  | frameComplete p => exact frameComplete_claimStep s p
  | silenceLimit p => exact silenceLimit_claimStep s p
  | takeRequest p => exact takeRequest_claimStep s p
  | replySent p => exact replySent_claimStep s p
  | breakDetected p => exact breakDetected_claimStep s p
  | frameReport p => exact frameReport_claimStep s p
  | windowExpiry p => exact windowExpiry_claimStep s p
  | severInputChange p b => exact ⟨_, rfl, State.untouched_step rfl rfl rfl rfl rfl fun _ => rfl⟩
  | severInputFiltered p => exact severInputFiltered_claimStep s p
  | liveAgain p => exact liveAgain_claimStep s p
  | outcomeAcknowledged p h => exact outcomeAcknowledged_claimStep s p h
  | noClaimsRemain => exact noClaimsRemain_claimStep s
  | waitExpiry p h => exact waitExpiry_claimStep s p h
  | holdExpiry p x => exact holdExpiry_claimStep s p x
  | graceExpiry p x => exact graceExpiry_claimStep s p x
  | phaseTimerExpiry x => exact phaseTimerExpiry_claimStep s x
  | confirmInputChange c b => exact ⟨_, rfl, State.untouched_step rfl rfl rfl rfl rfl fun _ => rfl⟩
  | confirmFilterChange c => exact confirmFilterChange_claimStep s c
  | guardElapsed x => exact ⟨_, rfl, report x _ _ fun u => u.onGuardElapsed_proceeds x⟩
  | releaseSeen x => exact ⟨_, rfl, report x _ _ fun u => u.onReleaseSeen_proceeds x⟩
  | verifyTimeout x => exact ⟨_, rfl, report x _ _ fun u => u.onVerifyTimeout_proceeds x⟩
  | engagedSeen x => exact ⟨_, rfl, report x _ _ fun u => u.onEngagedSeen_proceeds x⟩
  | engageTimeout x => exact ⟨_, rfl, report x _ _ fun u => u.onEngageTimeout_proceeds x⟩
  | confirmationLost x => exact ⟨_, rfl, report x _ _ fun u => u.onConfirmationLost_proceeds x⟩
  | pinReset => exact pinReset_claimStep s
  | characterReceived p c => exact characterReceived_claimStep s p c
  | framingError p => exact framingError_claimStep s p
  | receiveLineChange p a b => exact ⟨_, rfl, (s.setPort_proceeds p _).step⟩

/-- Every step is a step of the claims: of the command at the front of the queue, of the timer that is due, or of the time
alone. -/
theorem step_claimStep {s t : State} (h : step s = .next t) : s.ClaimStep t := by
  have run : ∀ (i : Instr) (u : State), exec i u = .next t → u.ClaimStep t := by
    intro i u hu
    obtain ⟨t', ht, he⟩ := exec_claimStep i u
    rw [ht] at hu; cases hu
    exact he
  unfold step at h
  split at h
  · exact (run _ _ h).after ⟨rfl, rfl, rfl, rfl, rfl⟩
  · unfold State.idle at h
    split at h
    · exact run _ s h
    · cases h
      exact State.untouched_step rfl rfl rfl rfl rfl fun _ => rfl

end Sys2Proof.Machine
end

section
/-! ## The laws of the claims -/

namespace Sys2Proof.Machine

section
variable {s t u : State} {p : Port} {h : Handle} {f : Filing} {tm : Option Time}

/-! ### Filing -/

/-- The claim filed for an item (R30). -/
def Item.filed (p : Port) (h : Handle) (i : Item) : Claim :=
  { owner := p, resource := i.resource, mode := i.mode, state := .waiting h }

theorem State.Files.mem (a : s.Files u p h f tm) {c : Claim} :
    c ∈ u.claims ↔ c ∈ s.claims ∨ ∃ i ∈ f.items, c = i.filed p h := by
  rw [a.claims, List.mem_append, List.mem_map]
  exact or_congr_right ⟨fun ⟨i, hi, e⟩ => ⟨i, hi, e.symm⟩, fun ⟨i, hi, e⟩ => ⟨i, hi, e.symm⟩⟩

/-- R20, R22: there is room for the filed claims, and none stood on their resources. -/
theorem State.Files.poolLaw (a : s.Files u p h f tm) (law : s.PoolLaw) : u.PoolLaw := by
  refine ⟨by simpa [a.claims] using a.room, ?_⟩
  rw [a.claims, List.map_append, List.nodup_append, List.map_map]
  refine ⟨law.oneEach, List.Nodup.of_map Prod.snd (by simpa [Function.comp_def] using a.distinct), ?_⟩
  rintro y hy z hz rfl
  obtain ⟨c, hc, rfl⟩ := List.mem_map.mp hy
  obtain ⟨i, hi, e⟩ := List.mem_map.mp hz
  obtain ⟨e1, e2⟩ := Prod.mk.inj e
  exact a.unclaimed i hi c hc e1.symm e2.symm

/-- R34: a filed claim is not assigned. -/
theorem State.Files.exclusiveLaw (a : s.Files u p h f tm) (law : s.ExclusiveLaw) : u.ExclusiveLaw := by
  have old : ∀ c ∈ u.claims, c.state.isAssigned = true → c ∈ s.claims := fun c hc ha =>
    (a.mem.mp hc).resolve_right fun ⟨i, _, e⟩ => by rw [e] at ha; cases ha
  rw [State.exclusiveLaw_iff] at *
  exact fun c hc d hd hr ha hb => law c (old c hc ha) d (old d hd hb) hr ha hb

/-- R23: the filed claims belong to the WAITING slot. -/
theorem State.Files.tableLaw (a : s.Files u p h f tm) (law : s.TableLaw) : u.TableLaw := by
  have unfiled : ∀ c ∈ s.claims, Claim.ofRequest p h c ≠ true := fun c hc ho => by
    obtain ⟨rfl, hh⟩ := Claim.ofRequest_iff.mp ho
    have := (law.backed c hc h hh).isOpen
    rw [a.free] at this; cases this
  refine ⟨fun c hc k hk => ?_, fun q k i hi => ?_, fun q k ho => ?_, fun c hc => ?_, fun hm => ?_, fun hd => ?_⟩
  · rcases a.mem.mp hc with hc | ⟨i, hi, rfl⟩
    · rw [a.slot, if_neg fun e => unfiled c hc (Claim.ofRequest_iff.mpr ⟨e.1.symm, by rw [hk, e.2]⟩)]
      exact law.backed c hc k hk
    · cases hk
      rw [a.slot, if_pos ⟨rfl, rfl⟩]
      exact ⟨rfl, List.mem_map.mpr ⟨i, hi, rfl⟩⟩
  · rw [a.slot] at hi
    split at hi
    · next e =>
      obtain ⟨rfl, rfl⟩ := e
      exact ⟨_, a.mem.mpr (.inr ⟨i, hi, rfl⟩), Claim.ofRequest_iff.mpr ⟨rfl, rfl⟩, rfl⟩
    · obtain ⟨c, hc, ho, hr⟩ := law.items q k i hi
      exact ⟨c, a.mem.mpr (.inl hc), ho, hr⟩
  · rw [a.slot] at ho ⊢
    split at ho
    · next e => rw [if_pos e]; exact a.nonempty
    · next e => rw [if_neg e]; exact law.open_ q k ho
  · rw [a.resource]
    rcases a.mem.mp hc with hc | ⟨i, hi, rfl⟩
    · exact law.defined c hc
    · exact a.defined i hi
  · rw [a.mode, a.service] at hm; cases hm
  · exact absurd a.service (law.drained (a.drainReports ▸ hd)).1

/-! ### The pool and the exclusive claims -/

theorem State.Advances.poolLaw (a : s.Advances t) (law : s.PoolLaw) : t.PoolLaw := by
  have keys := passes_keys a.claims
  refine ⟨le_trans (by simpa using keys.length_le) law.room, keys.nodup law.oneEach⟩

theorem State.ClaimStep.poolLaw (a : s.ClaimStep t) (law : s.PoolLaw) : t.PoolLaw := by
  cases a with
  | advances a => exact a.poolLaw law
  | files filed a => exact a.poolLaw (filed.poolLaw law)

theorem State.ClaimStep.exclusiveLaw (a : s.ClaimStep t) (pool : s.PoolLaw) (law : s.ExclusiveLaw) : t.ExclusiveLaw := by
  cases a with
  | advances a => exact a.exclusive pool.oneEach law
  | files filed a => exact a.exclusive (filed.poolLaw pool).oneEach (filed.exclusiveLaw law)

theorem State.ClaimStep.tableLaw (a : s.ClaimStep t) (law : s.TableLaw) : t.TableLaw := by
  cases a with
  | advances a => exact a.law law
  | files filed a => exact a.law (filed.tableLaw law)

/-! ### The wait queues -/

/-- The filed claims that wait for a resource. -/
def Filing.filedOn (p : Port) (h : Handle) (f : Filing) (x : ResNo) : List Claim :=
  (f.items.filter fun i => i.resource == x).map (Item.filed p h)

theorem Filing.filedOn_length (hd : (f.items.map fun i => i.resource).Nodup) (x : ResNo) : (f.filedOn p h x).length ≤ 1 := by
  have hn : ((f.items.filter fun i => i.resource == x).map fun i => i.resource).Nodup :=
    hd.sublist (List.filter_sublist.map _)
  have he : ((f.items.filter fun i => i.resource == x).map fun i => i.resource) =
      List.replicate (f.items.filter fun i => i.resource == x).length x :=
    List.eq_replicate_iff.mpr ⟨by simp, fun y hy => by
      obtain ⟨i, hi, rfl⟩ := List.mem_map.mp hy
      simpa using (List.mem_filter.mp hi).2⟩
  rw [he, List.nodup_replicate] at hn
  simpa [Filing.filedOn] using hn

theorem State.Files.waitQueue (a : s.Files u p h f tm) (x : ResNo) :
    u.waitQueue x = s.waitQueue x ++ f.filedOn p h x := by
  simp only [State.waitQueue, a.claims, List.filter_append, Filing.filedOn, List.filter_map]
  congr 2
  exact List.filter_congr fun i _ => by simp [ClaimState.isWaiting]

/-- R32: a wait queue loses claims from its places and gains at most one at its tail. -/
theorem State.ClaimStep.waitQueue (a : s.ClaimStep t) (x : ResNo) : ∃ kept filed, t.waitQueue x = kept ++ filed
    ∧ kept.Sublist (s.waitQueue x) ∧ filed.length ≤ 1 ∧ ∀ c ∈ filed, ∀ d ∈ s.claims, ¬ (d.owner = c.owner ∧ d.resource = x) := by
  cases a with
  | advances a => exact ⟨t.waitQueue x, [], by simp, passes_waiting a.claims x, by simp, nofun⟩
  | @files u p h f tm filed a =>
    have sub : (t.waitQueue x).Sublist (u.waitQueue x) := passes_waiting a.claims x
    rw [filed.waitQueue] at sub
    obtain ⟨kept, new, e, hk, hn⟩ := List.sublist_append_iff.mp sub
    refine ⟨kept, new, e, hk, hn.length_le.trans (Filing.filedOn_length filed.distinct x), fun c hc d hd => ?_⟩
    obtain ⟨i, hi, rfl⟩ := List.mem_map.mp (hn.subset hc)
    obtain ⟨hi, hx⟩ := List.mem_filter.mp hi
    rintro ⟨h1, h2⟩
    exact filed.unclaimed i hi d hd h1 (h2.trans (beq_iff_eq.mp hx).symm)

/-! ### The order of the wait queues -/

theorem sublist_eq_filter {α : Type} {l m : List α} {P : α → Bool} (hs : l.Sublist m) (hn : m.Nodup)
    (hp : ∀ a ∈ m, a ∈ l ↔ P a = true) : l = m.filter P := by
  induction hs with
  | slnil => rfl
  | @cons l m a hs ih =>
    rw [List.nodup_cons] at hn
    have ha : ¬ P a = true := fun h => hn.1 (hs.subset ((hp a (by simp)).mpr h))
    rw [List.filter_cons_of_neg ha]
    exact ih hn.2 fun b hb => hp b (by simp [hb])
  | @cons_cons l m a hs ih =>
    rw [List.nodup_cons] at hn
    rw [List.filter_cons_of_pos ((hp a (by simp)).mp (by simp))]
    refine congrArg (a :: ·) (ih hn.2 fun b hb => ?_)
    rw [← hp b (by simp [hb]), List.mem_cons]
    exact ⟨.inr, fun h => h.resolve_left fun e => hn.1 (e ▸ hb)⟩

/-- The request's slot is WAITING. -/
def State.waits (s : State) (r : Port × Option Handle) : Bool := r.2.any fun h => (s.slot r.1 h).isWaiting

theorem State.waits_some (s : State) (p : Port) (h : Handle) : s.waits (p, some h) = (s.slot p h).isWaiting := rfl

theorem ClaimState.isWaiting_iff {st : ClaimState} : st.isWaiting = true ↔ ∃ h, st = .waiting h := by
  cases st <;> simp [ClaimState.isWaiting]

/-- R23: a waiting claim's slot is WAITING. -/
theorem State.TableLaw.waits (law : s.TableLaw) {c : Claim} (hc : c ∈ s.claims) (hw : c.state.isWaiting = true) :
    s.waits (c.owner, c.state.handle) = true := by
  obtain ⟨h, e⟩ := ClaimState.isWaiting_iff.mp hw
  have := law.backed c hc h (by rw [e]; rfl)
  rw [e]
  show (s.slot c.owner h).isWaiting = true
  revert this
  cases s.slot c.owner h <;> simp [Slot.Backs, Slot.isWaiting, e, ClaimState.isReserved]

/-- A claim that waits is there after an advance exactly where its slot is still WAITING. -/
theorem State.Advances.waits_iff (a : s.Advances t) (pool : s.PoolLaw) (law : s.TableLaw) {c : Claim} (hc : c ∈ s.claims)
    (hw : c.state.isWaiting = true) : c ∈ t.claims ↔ t.waits (c.owner, c.state.handle) = true := by
  refine ⟨fun hc' => (a.law law).waits hc' hw, fun hs => ?_⟩
  obtain ⟨h, e⟩ := ClaimState.isWaiting_iff.mp hw
  rw [e] at hs
  have hs : (t.slot c.owner h).isWaiting = true := hs
  have same := a.slots c.owner h hs
  cases hsl : t.slot c.owner h with
  | free | assembling | done => rw [hsl] at hs; cases hs
  | waiting f tm =>
    have hb := law.backed c hc h (by rw [e]; rfl)
    rw [← same, hsl] at hb
    obtain ⟨i, hi, hr⟩ := List.mem_map.mp hb.2
    obtain ⟨c', hc', ho, hr'⟩ := (a.law law).items c.owner h i (by rw [hsl]; exact hi)
    obtain ⟨ho1, ho2⟩ := Claim.ofRequest_iff.mp ho
    have hw' : c'.state.isWaiting = true := by
      have := (a.law law).backed c' hc' h ho2
      rw [ho1, hsl] at this; exact this.1
    obtain ⟨d, hd, hp⟩ := passes_mem a.claims hc'
    obtain rfl := hp.waits hw'
    have oneEach : s.OneEach := pool.oneEach
    rwa [← oneEach.eq hd hc ho1 (hr'.trans hr)]

theorem State.mem_waitQueue {x : ResNo} {c : Claim} :
    c ∈ s.waitQueue x ↔ c ∈ s.claims ∧ c.resource = x ∧ c.state.isWaiting = true := by
  simp [State.waitQueue]

theorem State.Advances.waitRequests (a : s.Advances t) (pool : s.PoolLaw) (law : s.TableLaw) (x : ResNo) :
    t.waitRequests x = (s.waitRequests x).filter t.waits := by
  have oneEach : s.OneEach := pool.oneEach
  have sub : (t.waitQueue x).Sublist (s.waitQueue x) := passes_waiting a.claims x
  have e : t.waitQueue x = (s.waitQueue x).filter fun c => t.waits (c.owner, c.state.handle) := by
    refine sublist_eq_filter sub (oneEach.nodup.filter _) fun c hc => ?_
    obtain ⟨hm, hx, hw⟩ := State.mem_waitQueue.mp hc
    rw [← a.waits_iff pool law hm hw, State.mem_waitQueue]
    exact ⟨And.left, fun h => ⟨h, hx, hw⟩⟩
  rw [State.waitRequests, e, State.waitRequests, List.filter_map]
  rfl

/-- R32: requests that leave the wait queues leave all of them. -/
theorem State.Advances.waitOrderLaw (a : s.Advances t) (pool : s.PoolLaw) (law : s.TableLaw) (order : s.WaitOrderLaw) :
    t.WaitOrderLaw := by
  have both : ∀ x y, (t.waitRequests x).filter (fun r => decide (r ∈ t.waitRequests y)) =
      ((s.waitRequests x).filter fun r => decide (r ∈ s.waitRequests y)).filter t.waits := fun x y => by
    rw [a.waitRequests pool law x, a.waitRequests pool law y, List.filter_filter, List.filter_filter]
    refine List.filter_congr fun r _ => ?_
    cases hw : t.waits r <;> simp [List.mem_filter, hw]
  intro x y
  rw [both, both, order x y]

/-- The request filed, where an item of it names the resource. -/
theorem State.Files.waitRequests (a : s.Files u p h f tm) (x : ResNo) :
    u.waitRequests x = s.waitRequests x ++ if x ∈ f.items.map (fun i => i.resource) then [(p, some h)] else [] := by
  rw [State.waitRequests, a.waitQueue, List.map_append]
  refine congrArg (s.waitRequests x ++ ·) ?_
  have hall : ((f.filedOn p h x).map fun c => (c.owner, c.state.handle)) = List.replicate (f.filedOn p h x).length (p, some h) :=
    List.eq_replicate_iff.mpr ⟨by simp, fun y hy => by
      obtain ⟨c, hc, rfl⟩ := List.mem_map.mp hy
      obtain ⟨i, -, rfl⟩ := List.mem_map.mp hc
      rfl⟩
  have hle := Filing.filedOn_length (p := p) (h := h) a.distinct x
  rw [hall]
  split
  · next hx =>
    obtain ⟨i, hi, hr⟩ := List.mem_map.mp hx
    have : f.filedOn p h x ≠ [] :=
      List.ne_nil_of_mem (List.mem_map.mpr ⟨i, List.mem_filter.mpr ⟨hi, by simpa using hr⟩, rfl⟩)
    have := List.length_pos_iff.mpr this
    rw [show (f.filedOn p h x).length = 1 by omega]
    rfl
  · next hx =>
    have : f.filedOn p h x = [] := by
      refine List.map_eq_nil_iff.mpr (List.filter_eq_nil_iff.mpr fun i hi hr => hx ?_)
      exact List.mem_map.mpr ⟨i, hi, by simpa using hr⟩
    rw [this]
    rfl

/-- R32: a request that is filed stands behind all others in every wait queue. -/
theorem State.Files.waitOrderLaw (a : s.Files u p h f tm) (law : s.TableLaw) (order : s.WaitOrderLaw) : u.WaitOrderLaw := by
  have new : ∀ y, (p, some h) ∉ s.waitRequests y := fun y hm => by
    obtain ⟨c, hc, e⟩ := List.mem_map.mp hm
    obtain ⟨hcm, -, hw⟩ := State.mem_waitQueue.mp hc
    have := law.waits hcm hw
    rw [e, State.waits_some, a.free] at this
    cases this
  have both : ∀ x y, (u.waitRequests x).filter (fun r => decide (r ∈ u.waitRequests y)) =
      ((s.waitRequests x).filter fun r => decide (r ∈ s.waitRequests y)) ++
        if x ∈ f.items.map (fun i => i.resource) ∧ y ∈ f.items.map (fun i => i.resource) then [(p, some h)] else [] := fun x y => by
    rw [a.waitRequests x, a.waitRequests y, List.filter_append]
    refine congrArg₂ (· ++ ·) (List.filter_congr fun r hr => ?_) ?_
    · have hne : r ≠ (p, some h) := fun e => new x (e ▸ hr)
      by_cases hy : y ∈ f.items.map fun i => i.resource <;> simp only [hy, if_true, if_false] <;> simp [hne]
    · by_cases hx : x ∈ f.items.map fun i => i.resource <;> by_cases hy : y ∈ f.items.map fun i => i.resource <;>
        simp only [hx, hy, and_self, and_true, and_false, if_true, if_false] <;> simp [new y]
  intro x y
  rw [both, both, order x y]
  simp only [and_comm]

theorem State.ClaimStep.waitOrderLaw (a : s.ClaimStep t) (pool : s.PoolLaw) (law : s.TableLaw) (order : s.WaitOrderLaw) :
    t.WaitOrderLaw := by
  cases a with
  | advances a => exact a.waitOrderLaw pool law order
  | files filed a => exact a.waitOrderLaw (filed.poolLaw pool) (filed.tableLaw law) (filed.waitOrderLaw law order)

/-! ### Reservations -/

/-- R35: a claim that waited and is assigned after an advance has passed in SERVICE, its session LIVE. -/
theorem State.Advances.serves (a : s.Advances t) (pool : s.PoolLaw) {c d : Claim} (hc : c ∈ s.claims)
    (hw : c.state.isWaiting = true) (hd : d ∈ t.claims) (ho : d.owner = c.owner) (hr : d.resource = c.resource)
    (ha : d.state.isAssigned = true) : t.Serves c.owner := by
  obtain ⟨b, hb, hp⟩ := passes_mem a.claims hd
  have oneEach : s.OneEach := pool.oneEach
  obtain rfl := oneEach.eq hb hc ((Claim.key_owner hp.key).symm.trans ho) ((Claim.key_resource hp.key).symm.trans hr)
  refine (hp.assigned ha).resolve_left fun h => ?_
  obtain ⟨k, e⟩ := ClaimState.isWaiting_iff.mp hw
  rw [e] at h; cases h
end

/-! ### The obligations -/

/-- Settles O52: every command advances the claims, behind the filing of at most one request. -/
theorem stepsKeepTheClaimLaws : Obligations.StepsKeepTheClaimLaws :=
  ⟨fun _ _ pool law h => ⟨(step_claimStep h).poolLaw pool, (step_claimStep h).exclusiveLaw pool law⟩,
   fun _ _ x h => (step_claimStep h).waitQueue x,
   fun _ _ pool law order h => (step_claimStep h).waitOrderLaw pool law order⟩

/-- Settles O53, from what every command makes of each request and of the mode. -/
theorem stepsKeepTheTableLaw : Obligations.StepsKeepTheTableLaw := fun _ _ law h => (step_claimStep h).tableLaw law

/-- Settles O58: only the reservation of a ready request takes a claim out of a wait queue into the assigned set. -/
theorem reservationsNeedServiceAndALiveSession : Obligations.ReservationsNeedServiceAndALiveSession := by
  intro s t pool h c hc hw d hd ho hr ha
  cases step_claimStep h with
  | advances a => exact a.serves pool hc hw hd ho hr ha
  | files filed a => exact a.serves (filed.poolLaw pool) (filed.mem.mpr (.inl hc)) hw hd ho hr ha

end Sys2Proof.Machine
end

section
/-! ## The state after reset -/

namespace Sys2Proof.Machine

theorem State.slot_reset (p : Port) (h : Handle) : State.reset.slot p h = .free := by
  simp [State.reset, State.afterReset, State.slot]

theorem State.kindOf_reset (x : ResNo) : State.reset.kindOf x = none := by
  simp [State.reset, State.afterReset, State.kindOf, State.resource]

theorem State.session_reset (p : Port) : State.reset.session p = { incarnation := 0, state := .idle } := by
  simp [State.reset, State.afterReset, State.session]

theorem State.queue_reset (p : Port) : State.reset.queue p = { entries := [], nextSeq := 1, incarnation := 0 } := by
  simp [State.reset, State.afterReset, State.queue]

theorem NoticeQueue.law_empty (inc : Byte) : ({ entries := [], nextSeq := 1, incarnation := inc } : NoticeQueue).Law :=
  ⟨List.nodup_nil, List.nodup_nil, nofun, by simp, nofun⟩

theorem State.reset_tableLaw : State.reset.TableLaw :=
  ⟨nofun, fun p h i hi => (by rw [State.slot_reset] at hi; cases hi),
    fun p h ho => (by rw [State.slot_reset] at ho; cases ho), nofun, fun _ => rfl, nofun⟩

theorem State.reset_definitionLaw : State.reset.DefinitionLaw := by
  have none : ∀ x d, State.reset.lineDef x ≠ some d := fun x d h => by
    rw [State.lineDef_eq_kindOf, State.kindOf_reset] at h; cases h
  exact ⟨fun x d h => absurd h (none x d), fun x y d e _ h => absurd h (none x d), fun x y d e b c _ h => absurd h (none x d)⟩

theorem State.reset_assignedLaw : State.reset.AssignedLaw :=
  ⟨nofun, fun x k h => (by rw [State.kindOf_reset] at h; cases h),
    fun p h f pend hs => (by rw [State.slot_reset] at hs; cases hs)⟩

/-- Settles O60: right after reset no claim, open request, session, notice or resource exists. -/
theorem resetHasEveryLaw : Obligations.ResetHasEveryLaw := by
  refine ⟨⟨Nat.zero_le _, List.nodup_nil⟩, (State.exclusiveLaw_iff _).mpr nofun, State.reset_tableLaw, fun p => ?_,
    fun p _ => ⟨nofun, State.slot_reset p, by rw [State.queue_reset]⟩, ⟨by decide, fun p o l h => ?_⟩,
    fun x k h => ?_, State.reset_definitionLaw, State.reset_assignedLaw, fun _ _ => rfl⟩
  · rw [State.queue_reset]
    exact ⟨NoticeQueue.law_empty 0, 0, nofun, nofun⟩
  · rw [State.session_reset] at h; cases h
  · rw [State.kindOf_reset] at h; cases h

end Sys2Proof.Machine
end

section
/-! ## Acknowledgement events -/

namespace Sys2Proof.Machine

section
variable {s : State} {a : AckEvent}

theorem State.acknowledge_done {o : SlotOutcome} (h : s.slot a.port a.handle = .done a.incarnation o) :
    s.acknowledge a = s.setSlot a.port a.handle .free := by
  simp [State.acknowledge, h]

theorem State.acknowledge_other (h : ∀ o, s.slot a.port a.handle ≠ .done a.incarnation o) : s.acknowledge a = s := by
  unfold State.acknowledge
  split
  · next inc o hs => exact if_neg fun (e : inc = a.incarnation) => h o (e ▸ hs)
  · rfl

/-- The oldest event of the port and handle is taken (R24). -/
theorem exec_outcomeAcknowledged {pre post : List AckEvent} (he : s.ackEvents = pre ++ a :: post)
    (hpre : ∀ b ∈ pre, ¬ (b.port = a.port ∧ b.handle = a.handle)) : exec (.outcomeAcknowledged a.port a.handle) s =
      .next ((({ s with ackEvents := pre ++ post } : State).acknowledge a).endOfEvent) := by
  have none : ∀ b ∈ pre, ¬ (b.port == a.port && b.handle == a.handle) = true := fun b hb => by simpa using hpre b hb
  have found : (s.ackEvents.find? fun b => b.port == a.port && b.handle == a.handle) = some a := by
    rw [he, List.find?_append, List.find?_eq_none.mpr none]
    simp
  have left : (s.ackEvents.eraseP fun b => b.port == a.port && b.handle == a.handle) = pre ++ post := by
    rw [he, List.eraseP_append_right _ none, List.eraseP_cons_of_pos (by simp)]
  show execOutcomeAcknowledged a.port a.handle s = _
  unfold execOutcomeAcknowledged
  rw [found, ← left]
end

/-- Settles O32, from the taking of the oldest event of the port and handle. -/
theorem acknowledgementFreesTheSlot : Obligations.AcknowledgementFreesTheSlot := by
  rintro p h a pre post s he rfl rfl hpre
  rw [exec_outcomeAcknowledged he hpre]
  refine ⟨fun ⟨o, ho⟩ => ?_, fun hne => ?_⟩
  · rw [State.acknowledge_done (s := { s with ackEvents := pre ++ post }) ho]
  · rw [State.acknowledge_other (s := { s with ackEvents := pre ++ post }) hne]

end Sys2Proof.Machine
end

section
/-! ## The order of taking and the answer -/

namespace Sys2Proof.Machine

section
variable {s t : State} {k : RequestKind} {p : Port} {f : Frame} {o : Owner}

/-! ### The pointers -/

/-- A block takes the first offering port in the order of R25. -/
theorem State.nextServed_iff : s.nextServed o = some p ↔ s.offers o p = true ∧
    ∃ i < 6, portAfter (s.served o) i = p ∧ ∀ j < i, s.offers o (portAfter (s.served o) j) = false := by
  unfold State.nextServed
  rw [List.find?_map, Option.map_eq_some_iff]
  simp only [List.find?_range_eq_some, Function.comp_apply, List.mem_range, Bool.not_eq_true']
  constructor
  · rintro ⟨i, ⟨h1, h2, h3⟩, rfl⟩
    exact ⟨h1, i, h2, rfl, h3⟩
  · rintro ⟨h1, i, h2, rfl, h3⟩
    exact ⟨i, ⟨h1, h2, h3⟩, rfl⟩

theorem State.mayTake_iff (h : o ≠ .portInterface) : s.mayTake o p = true ↔ s.nextServed o = some p := by
  unfold State.mayTake
  split
  · exact absurd rfl h
  · exact beq_iff_eq

theorem State.served_congr (h1 : t.servedCT = s.servedCT) (h2 : t.servedSC = s.servedSC) (h3 : t.servedNS = s.servedNS)
    (h4 : t.servedSV = s.servedSV) : t.served o = s.served o := by
  cases o <;> assumption

theorem State.Requested.served (a : s.Requested t p) : t.served o = s.served o :=
  State.served_congr a.servedCT a.servedSC a.servedNS a.servedSV

theorem State.served_setServed (hk : k.owner ≠ .portInterface) (ho : o ≠ .portInterface) :
    (s.setServed k.owner p).served o = if o = k.owner then p else s.served o := by
  revert hk
  generalize k.owner = b
  intro hk
  cases b <;> cases o <;> first | rfl | exact absurd rfl hk | exact absurd rfl ho

theorem State.served_taking (ho : o ≠ .portInterface) :
    (s.taking k p f).served o = if o = k.owner then p else s.served o := by
  obtain ⟨u, a, e⟩ := s.taking_seen k p f
  have seen : (u.setPort p { u.port p with reports := (s.port p).reports.filter fun r => decide (f.stamp < r.stamp) }).served o
      = s.served o := State.served_congr a.served.1 a.served.2.1 a.served.2.2.1 a.served.2.2.2
  rw [e]
  by_cases hk : k.owner = .portInterface
  · rw [if_neg (hk ▸ ho), ← seen, hk]
    rfl
  · rw [State.served_setServed hk ho, seen]

theorem State.served_endOfServe (b : Owner) : (s.endOfServe b).served o = s.served o := by
  cases b with
  | claimTable => exact State.served_congr (t := s.endOfEvent) (by simp) (by simp) (by simp) (by simp)
  | sessionController | noticeStore | supervision | portInterface => rfl

/-- The answer to a request moves no pointer (R25). -/
theorem State.served_answer {v : Verdict} (h : v.Follows s p) (b : Owner) : (s.answer b p f v).served o = s.served o := by
  cases v with
  | refused st => exact (State.served_congr rfl rfl rfl rfl).trans (State.served_endOfServe b)
  | executed st body t =>
    exact ((State.served_congr rfl rfl rfl rfl).trans (State.served_endOfServe b)).trans h.2.served

/-! ### The answer -/

@[simp] theorem State.endOfServe_isOpen (b : Owner) (q : Port) : (s.endOfServe b).isOpen q = s.isOpen q := by
  simp [State.isOpen]

@[simp] theorem State.endOfServe_isLive (b : Owner) (q : Port) : (s.endOfServe b).isLive q = s.isLive q := by
  simp [State.isLive]

theorem State.endOfServe_sameClaimTable (b : Owner) : s.SameClaimTable (s.endOfServe b) := by
  cases b <;> constructor <;> simp [State.endOfServe]

theorem State.endOfServe_sameSupervision (b : Owner) : s.SameSupervision (s.endOfServe b) := by
  cases b <;> constructor <;> simp [State.endOfServe]

theorem State.endOfServe_sameInputs (b : Owner) : s.SameInputs (s.endOfServe b) := by
  cases b <;> constructor <;> simp [State.endOfServe]

theorem State.endOfServe_sameEvents (b : Owner) : s.SameEvents (s.endOfServe b) := by
  cases b <;> constructor <;> simp [State.endOfServe]

theorem State.taking_port_other {q : Port} (h : q ≠ p) : (s.taking k p f).port q = s.port q := by
  rw [State.taking_port, if_neg (Ne.symm h)]

theorem State.place_port_other {st : Status} {body : List Byte} {ex : Bool} {q : Port} (h : q ≠ p) :
    (s.place p f st body ex).port q = s.port q := by
  rw [State.place_port, if_neg (Ne.symm h)]

/-- What a refusal leaves as it was (R191). -/
theorem State.refused_leaves (s : State) (k : RequestKind) (p : Port) (f : Frame) (st : Status) (body : List Byte) :
    let u := ((s.taking k p f).endOfServe k.owner).place p f st body false
    s.SameClaimTable u ∧ s.SameSupervision u ∧ s.SameInputs u ∧ s.SameOtherPorts u p ∧ s.SameEvents u
      ∧ u.queue p = s.queue p ∧ u.isOpen p = s.isOpen p ∧ u.isLive p = s.isLive p ∧ u.incarnation p = s.incarnation p
      ∧ (u.port p).cache = (s.port p).cache ∧ (u.port p).inbound = (s.port p).inbound
      ∧ (u.port p).rate = (s.port p).rate ∧ (u.port p).pendingRate = (s.port p).pendingRate := by
  intro u
  have table := (s.taking k p f).endOfServe_sameClaimTable k.owner
  have sup := (s.taking k p f).endOfServe_sameSupervision k.owner
  have inputs := (s.taking k p f).endOfServe_sameInputs k.owner
  have events := (s.taking k p f).endOfServe_sameEvents k.owner
  have port : (((s.taking k p f).endOfServe k.owner).port p) =
      { s.port p with reports := (s.port p).reports.filter fun r => decide (f.stamp < r.stamp) } := by
    rw [State.endOfServe_port, State.taking_port, if_pos rfl]
  obtain ⟨hin, hrate, hpend⟩ := State.place_port_keeps (p := p) (f := f) ((s.taking k p f).endOfServe k.owner) st body false p
  refine ⟨⟨?_, ?_, ?_, ?_⟩, ⟨?_, ?_, ?_, ?_, ?_⟩, ⟨?_, ?_, ?_, ?_⟩, fun q hq => ⟨?_, ?_, ?_⟩, ⟨?_, ?_⟩, ?_, ?_, ?_, ?_, ?_, ?_, ?_, ?_⟩
  · exact table.claims.trans (by simp)
  · exact table.slots.trans (by simp)
  · exact table.resources.trans (by simp)
  · exact table.lineReports.trans (by simp)
  · exact sup.mode.trans (by simp)
  · exact sup.supervisor.trans (by simp)
  · exact sup.threshold.trans (by simp)
  · exact sup.recovery.trans (by simp)
  · exact sup.filterTime.trans (by simp)
  · exact inputs.confirmInputs.trans (by simp)
  · exact inputs.severInputs.trans (by simp)
  · exact inputs.now.trans (by simp)
  · exact inputs.pending.trans (by simp)
  · simp [u, State.taking_session_other s k p f q hq]
  · simp [u]
  · rw [State.place_port_other hq, State.endOfServe_port, State.taking_port_other hq]
  · exact events.ackEvents.trans (by simp)
  · exact events.liveReports.trans (by simp)
  · simp [u]
  · simp [u]
  · simp [u]
  · simp [u]
  · simp [u, State.place_port, State.taking_port]
  · rw [hin, port]
  · rw [hrate, port]
  · rw [hpend, port]

/-- Whatever the verdict, no other port's reply buffer, check stage or rate changes (R170, R171). -/
theorem State.Requested.placed_other (a : (s.taking k p f).Requested t p) (b : Owner) (st : Status) (body : List Byte) (ex : Bool)
    (q : Port) (hq : q ≠ p) :
    let u := (t.endOfServe b).place p f st body ex
    (u.port q).replies = (s.port q).replies ∧ (u.port q).checkStage = (s.port q).checkStage
      ∧ (u.port q).rate = (s.port q).rate ∧ (u.port q).pendingRate = (s.port q).pendingRate := by
  intro u
  have taken := State.taking_port_other (s := s) (k := k) (f := f) hq
  have e : u.port q = t.port q := by rw [State.place_port_other hq, State.endOfServe_port]
  rw [e, a.replies, a.checkStage, a.rate, a.pendingRate q hq, taken]
  exact ⟨rfl, rfl, rfl, rfl⟩

theorem State.refusalBody_empty (s : State) (p : Port) (st : Status) : s.refusalBody p st = [] ∨ st = .sessionSevered := by
  unfold State.refusalBody
  split
  · exact .inr rfl
  · exact .inl rfl
end

/-- Settles O5: the order of R25 is the model's search, and no answer moves a pointer. -/
theorem blocksServePortsInTurn : Obligations.BlocksServePortsInTurn := by
  refine ⟨fun s o p ho => (State.mayTake_iff ho).trans State.nextServed_iff, fun k p f s h => ?_, fun k p s h => ?_⟩
  · have served : ∀ o, o ≠ .portInterface →
        ((s.taking k p f).answer k.owner p f (k.verdict p f (s.taking k p f))).served o = if o = k.owner then p else s.served o :=
      fun o ho => (State.served_answer (k.verdict_follows p f _) k.owner).trans (State.served_taking ho)
    exact ⟨_, exec_offered h, fun hk => (served _ hk).trans (if_pos rfl), fun o ho hne => (served o ho).trans (if_neg hne)⟩
  · rw [exec_command, State.serve_not_offered h]

/-- Settles O7, by the verdict: a refusal places its reply and nothing more, an execution places its own. -/
theorem requestsAreAnsweredOnce : Obligations.RequestsAreAnsweredOnce := by
  intro k p f s h
  have follows := k.verdict_follows p f (s.taking k p f)
  cases hv : k.verdict p f (s.taking k p f) with
  | refused st =>
    rw [hv] at follows
    refine ⟨_, st, ((s.taking k p f).endOfServe k.owner).refusalBody p st, by rw [exec_offered h, hv]; rfl,
      State.place_answered p f st _ false (by simp [State.taking_port]),
      (State.Requested.refl (s.taking k p f) p).placed_other k.owner st _ false, .inr ⟨follows, ?_, rfl, ?_⟩⟩
    · exact State.refusalBody_empty _ p st
    · exact s.refused_leaves k p f st _
  | executed st body t =>
    rw [hv] at follows
    obtain ⟨hexec, hans, hreq⟩ := h.executed hv
    exact ⟨_, st, body, hexec, hans, hreq.placed_other k.owner st body true, .inl ⟨follows.1, State.place_cache _ st body⟩⟩

end Sys2Proof.Machine
end

section
/-! ## The timers -/

namespace Sys2Proof.Machine

section
variable {s : State} {p : Port} {t : Time} {i : Instr}

/-! ### The timer that is due -/

theorem firstToExpire_none {ts : List (Time × Instr)} (h : firstToExpire ts = none) : ts = [] := by
  cases ts with
  | nil => rfl
  | cons t ts =>
    rw [firstToExpire] at h
    split at h
    · cases h
    · split at h <;> cases h

theorem firstToExpire_some {ts : List (Time × Instr)} {t : Time × Instr} (h : firstToExpire ts = some t) :
    t ∈ ts ∧ ∀ u ∈ ts, t.1 ≤ u.1 := by
  induction ts generalizing t with
  | nil => cases h
  | cons a ts ih =>
    rw [firstToExpire] at h
    split at h
    · next hn =>
      cases h
      simp [firstToExpire_none hn]
    · next b hb =>
      obtain ⟨hm, hle⟩ := ih hb
      split at h <;> cases h
      · next hlt => exact ⟨.tail _ hm, List.forall_mem_cons.mpr ⟨Nat.le_of_lt hlt, hle⟩⟩
      · next hge =>
        exact ⟨.head _, List.forall_mem_cons.mpr ⟨Nat.le_refl _, fun u hu => Nat.le_trans (Nat.not_lt.mp hge) (hle u hu)⟩⟩

theorem State.dueEvent_some (h : s.dueEvent = some i) : ∃ t, (t, i) ∈ s.timers ∧ t ≤ s.now ∧ ∀ u ∈ s.timers, t ≤ u.1 := by
  unfold State.dueEvent at h
  split at h
  · next t j hf =>
    obtain ⟨hm, hle⟩ := firstToExpire_some hf
    split at h <;> cases h
    exact ⟨t, hm, ‹_›, hle⟩
  · cases h

theorem State.dueEvent_none (h : s.dueEvent = none) : ∀ u ∈ s.timers, s.now < u.1 := by
  unfold State.dueEvent at h
  split at h
  · next t j hf =>
    split at h
    · cases h
    · next hn => exact fun u hu => Nat.lt_of_lt_of_le (Nat.not_le.mp hn) ((firstToExpire_some hf).2 u hu)
  · next hn => rw [firstToExpire_none hn]; nofun

theorem step_of_idle (h : s.pending = []) : step s = s.idle := by unfold step; rw [h]

/-! ### The timers of each table -/

theorem InputFilter.due_eq_some {v : InputFilter} {filter : Time} :
    v.due filter = some t ↔ v.raw ≠ v.filtered ∧ t = v.changed + filter := by
  unfold InputFilter.due
  split
  · next h => simp [h]
  · next h => simp [h, eq_comm]

theorem PortInterface.replyEnds_eq_some {q : PortInterface} {m : Moment} : q.replyEnds = some m ↔
    ∃ b r rest, q.begins = some b ∧ q.replies = r :: rest ∧ m = b + r.bytes.length * q.rate.charMoments := by
  unfold PortInterface.replyEnds
  split
  · next b r rest hb hr => simp [hb, hr, eq_comm]
  · next hn => exact ⟨nofun, fun ⟨b, r, rest, hb, hr, _⟩ => (hn b r rest hb hr).elim⟩

/-- The timer of the break detector (R177). -/
def RxLine.breakTimer (p : Port) : RxLine → List (Time × Instr)
  | .space since false => [(since + Config.breakUnits, .breakDetected p)]
  | _ => []

/-- The wait timer of a slot (R46). -/
def Slot.waitTimer (p : Port) (h : Handle) : Slot → List (Time × Instr)
  | .waiting _ (some t) => [(t, .waitExpiry p h)]
  | _ => []

theorem State.portTimers_eq (s : State) (p : Port) : s.portTimers p =
    ((s.session p).state.opened.map fun o => (o.windowEnds, Instr.windowExpiry p)).toList ++
    (s.severInputs[p].due Config.severFilterUnits |>.map fun t => (t, Instr.severInputFiltered p)).toList ++
    (s.port p).line.breakTimer p ++ ((s.port p).silence.map fun t => (t, Instr.silenceLimit p)).toList ++
    ((s.port p).replyEnds.map fun m => (unitOf m, Instr.replySent p)).toList ++
    (List.finRange 8).flatMap fun h => (s.slot p h).waitTimer p h := rfl

theorem RxLine.mem_breakTimer {l : RxLine} : (t, i) ∈ l.breakTimer p ↔
    ∃ since, l = .space since false ∧ t = since + 1000 ∧ i = .breakDetected p := by
  unfold RxLine.breakTimer
  split
  · next since => simp [Config.breakUnits]
  · next hn => exact ⟨nofun, fun ⟨since, h, _⟩ => (hn since h).elim⟩

theorem Slot.mem_waitTimer {v : Slot} {h : Handle} : (t, i) ∈ v.waitTimer p h ↔
    ∃ f, v = .waiting f (some t) ∧ i = .waitExpiry p h := by
  unfold Slot.waitTimer
  split
  · next f t' =>
    constructor
    · intro hm
      obtain ⟨rfl, rfl⟩ := Prod.mk.inj (List.mem_singleton.mp hm)
      exact ⟨f, rfl, rfl⟩
    · rintro ⟨f', e, rfl⟩
      cases e
      exact List.mem_singleton.mpr rfl
  · next hn => exact ⟨nofun, fun ⟨f, e, _⟩ => (hn f t e).elim⟩

theorem mem_toList_map {α β : Type} {o : Option α} {g : α → β} {b : β} :
    b ∈ (o.map g).toList ↔ ∃ a, o = some a ∧ b = g a := by
  cases o <;> simp

theorem State.mem_portTimers : (t, i) ∈ s.portTimers p ↔
    (∃ o, (s.session p).state.opened = some o ∧ t = o.windowEnds ∧ i = .windowExpiry p)
    ∨ (s.severInputs[p].raw ≠ s.severInputs[p].filtered ∧ t = s.severInputs[p].changed + 100 ∧ i = .severInputFiltered p)
    ∨ (∃ since, (s.port p).line = .space since false ∧ t = since + 1000 ∧ i = .breakDetected p)
    ∨ ((s.port p).silence = some t ∧ i = .silenceLimit p)
    ∨ (∃ b r rest, (s.port p).begins = some b ∧ (s.port p).replies = r :: rest
        ∧ t = unitOf (b + r.bytes.length * (10 * (s.port p).rate.bitMoments)) ∧ i = .replySent p)
    ∨ ∃ h f, s.slot p h = .waiting f (some t) ∧ i = .waitExpiry p h := by
  have window : (t, i) ∈ ((s.session p).state.opened.map fun o => (o.windowEnds, Instr.windowExpiry p)).toList ↔
      ∃ o, (s.session p).state.opened = some o ∧ t = o.windowEnds ∧ i = .windowExpiry p := by
    simp only [mem_toList_map, Prod.mk.injEq]
  have sever : (t, i) ∈ (s.severInputs[p].due Config.severFilterUnits |>.map fun t => (t, Instr.severInputFiltered p)).toList ↔
      s.severInputs[p].raw ≠ s.severInputs[p].filtered ∧ t = s.severInputs[p].changed + 100 ∧ i = .severInputFiltered p := by
    simp only [mem_toList_map, InputFilter.due_eq_some, Prod.mk.injEq, Config.severFilterUnits]
    exact ⟨fun ⟨a, ⟨h1, h2⟩, h3, h4⟩ => ⟨h1, h3.trans h2, h4⟩, fun ⟨h1, h2, h3⟩ => ⟨_, ⟨h1, rfl⟩, h2, h3⟩⟩
  have silence : (t, i) ∈ ((s.port p).silence.map fun t => (t, Instr.silenceLimit p)).toList ↔
      (s.port p).silence = some t ∧ i = .silenceLimit p := by
    simp only [mem_toList_map, Prod.mk.injEq]
    exact ⟨fun ⟨a, h1, h2, h3⟩ => ⟨h2 ▸ h1, h3⟩, fun ⟨h1, h2⟩ => ⟨t, h1, rfl, h2⟩⟩
  have reply : (t, i) ∈ ((s.port p).replyEnds.map fun m => (unitOf m, Instr.replySent p)).toList ↔
      ∃ b r rest, (s.port p).begins = some b ∧ (s.port p).replies = r :: rest
        ∧ t = unitOf (b + r.bytes.length * (10 * (s.port p).rate.bitMoments)) ∧ i = .replySent p := by
    simp only [mem_toList_map, PortInterface.replyEnds_eq_some, Prod.mk.injEq]
    exact ⟨fun ⟨m, ⟨b, r, rest, h1, h2, h3⟩, h4, h5⟩ => ⟨b, r, rest, h1, h2, h4.trans (by rw [h3]; rfl), h5⟩,
      fun ⟨b, r, rest, h1, h2, h3, h4⟩ => ⟨_, ⟨b, r, rest, h1, h2, rfl⟩, h3, h4⟩⟩
  simp only [State.portTimers_eq, List.mem_append, List.mem_flatMap, List.mem_finRange, true_and, window, sever,
    RxLine.mem_breakTimer, silence, reply, Slot.mem_waitTimer, or_assoc]

theorem Claim.mem_timer {c : Claim} : (t, i) ∈ c.timer ↔
    (∃ g, c.state = .held g (.timing t) ∧ i = .holdExpiry c.owner c.resource)
    ∨ ∃ g, c.state = .held g (.yielding t) ∧ i = .graceExpiry c.owner c.resource := by
  unfold Claim.timer
  split
  · next g t' hs => rw [hs]; simp [eq_comm (a := t)]
  · next g t' hs => rw [hs]; simp [eq_comm (a := t)]
  · next h1 h2 =>
    exact ⟨nofun, fun h => h.elim (fun ⟨g, e, _⟩ => (h1 g t e).elim) fun ⟨g, e, _⟩ => (h2 g t e).elim⟩

theorem Phase.ends_eq_some {ph : Phase} : ph.ends = some t ↔ ph = .guard t ∨ ph = .verify t ∨ ph = .engage t := by
  cases ph <;> simp [Phase.ends]

theorem State.phaseRecord_eq_some {x : ResNo} {lu : PhaseRecord} :
    s.phaseRecord x = some lu ↔ ∃ d st, s.kindOf x = some (.line d st lu) := by
  unfold State.phaseRecord
  split
  · next d st lu' hk => simp [hk]
  · next hn => exact ⟨nofun, fun ⟨d, st, hk⟩ => (hn d st lu hk).elim⟩

theorem State.mem_phaseTimer {x : ResNo} : (t, i) ∈ s.phaseTimer x ↔
    ∃ d st a ph, s.kindOf x = some (.line d st { applied := a, phase := ph })
      ∧ (ph = .guard t ∨ ph = .verify t ∨ ph = .engage t) ∧ i = .phaseTimerExpiry x := by
  simp only [State.phaseTimer, mem_toList_map, Option.bind_eq_some_iff, Phase.ends_eq_some, State.phaseRecord_eq_some,
    Prod.mk.injEq]
  constructor
  · rintro ⟨t', ⟨⟨a, ph⟩, ⟨d, st, hk⟩, hp⟩, rfl, hi⟩
    exact ⟨d, st, a, ph, hk, hp, hi⟩
  · rintro ⟨d, st, a, ph, hk, hp, hi⟩
    exact ⟨t, ⟨_, ⟨d, st, hk⟩, hp⟩, rfl, hi⟩

theorem State.mem_confirmTimer {c : ConfNo} : (t, i) ∈ s.confirmTimer c ↔
    s.confirmInputs[c].raw ≠ s.confirmInputs[c].filtered ∧ t = s.confirmInputs[c].changed + s.filterTime * 10
      ∧ i = .confirmFilterChange c := by
  simp only [State.confirmTimer, mem_toList_map, InputFilter.due_eq_some, Prod.mk.injEq]
  exact ⟨fun ⟨a, ⟨h1, h2⟩, h3, h4⟩ => ⟨h1, h3.trans h2, h4⟩, fun ⟨h1, h2, h3⟩ => ⟨_, ⟨h1, rfl⟩, h2, h3⟩⟩
end

/-- Settles O2: the timers are read off table by table, and the one due first is taken. -/
theorem emptyQueueStepsTheClock : Obligations.EmptyQueueStepsTheClock := by
  refine ⟨fun s hp => ⟨fun i hi => ⟨?_, State.dueEvent_some hi⟩, fun hn => ⟨?_, State.dueEvent_none hn⟩⟩, fun s t i => ?_⟩
  · rw [step_of_idle hp, State.idle, hi]
  · rw [step_of_idle hp, State.idle, hn]; rfl
  · simp only [State.timers, List.mem_append, List.mem_flatMap, List.mem_finRange, true_and, State.mem_portTimers,
      Claim.mem_timer, State.mem_phaseTimer, State.mem_confirmTimer, exists_or, and_or_left, or_assoc]

end Sys2Proof.Machine
end

section
/-! ## The expiry of a wait timer -/

namespace Sys2Proof.Machine

/-- What the end of a Claim Table event with pieces of it leaves outside the table. -/
theorem State.TableEvent.ended {s t : State} (e : s.TableEvent t) : s.SameOutsideClaimTable t.endOfEvent :=
  e.outside.trans t.endOfEvent_outside

section
variable {s : State} {p : Port} {h : Handle}

theorem exec_waitExpiry_stopped (hs : ∀ fl t, s.slot p h ≠ .waiting fl (some t)) : exec (.waitExpiry p h) s = .next s := by
  show execWaitExpiry p h s = _
  unfold execWaitExpiry
  split
  · next fl t e => exact absurd e (hs fl t)
  · rfl

theorem exec_waitExpiry {fl : Filing} {t : Time} (hs : s.slot p h = .waiting fl (some t)) : exec (.waitExpiry p h) s =
    .next ((((s.passTo t).endRequest p h .expired (.expired h)).evaluate (s.itemResources p h)).endOfEvent) := by
  show execWaitExpiry p h s = _
  unfold execWaitExpiry
  rw [hs]

/-- A request that has ended is DONE, without a claim and with its notice, whatever an evaluation does then (R46, R48). -/
theorem State.ended_evaluate (o : SlotOutcome) (n : Notice) (xs : List ResNo) (ho : (s.slot p h).isOpen = true)
    (hk : n.key = .handle h) :
    let u := (s.endRequest p h o n).evaluate xs
    u.slot p h = (s.slot p h).ended o ∧ u.NoRequest p h ∧ (s.isOpen p = true → u.HasNotice p n) := by
  intro u
  have slot : (s.endRequest p h o n).slot p h = (s.slot p h).ended o := by rw [State.endRequest_slot, if_pos ⟨rfl, rfl⟩]
  have closed : ((s.endRequest p h o n).slot p h).isWaiting = false := by
    rw [slot]
    cases s.slot p h <;> rfl
  refine ⟨(State.evaluateWith_slot none _ xs p h closed).trans slot,
    (State.endRequest_noRequest s p h o n ho).evaluateWith none _ xs, fun hp => ?_⟩
  refine (State.endRequest_hasNotice s p h o n ho hp).evaluateWith none _ xs fun k hk' => ?_
  rw [hk] at hk'; cases hk'
  exact closed
end

/-- Settles O44: the request is ended, and the evaluation cannot undo it. -/
theorem waitExpiryEndsTheRequest : Obligations.WaitExpiryEndsTheRequest := by
  refine fun p h s => ⟨exec_waitExpiry_stopped, fun fl t hs => ⟨_, exec_waitExpiry hs, ?_⟩⟩
  have event := (State.endRequest_tableEvent (s.passTo t) p h .expired (.expired h)).trans
    (State.evaluate_tableEvent _ (s.itemResources p h))
  obtain ⟨hslot, hclaims, hnotice⟩ := State.ended_evaluate (s := s.passTo t) .expired (.expired h) (s.itemResources p h)
    (show (s.slot p h).isOpen = true by rw [hs]; rfl) rfl
  have outside := event.ended
  refine ⟨outside.now, ?_, fun c hc => hclaims c (by simpa using hc), fun hp => ?_, fun q k hq => ?_, outside.sessions,
    outside.ports, ⟨outside.mode, outside.supervisor, outside.threshold, outside.recovery, outside.filterTime⟩,
    ⟨outside.ackEvents, outside.liveReports⟩, outside.confirmInputs, outside.severInputs⟩
  · rw [State.endOfEvent_slot, hslot]
    show (s.slot p h).ended .expired = _
    rw [hs]; rfl
  · exact (hnotice hp).congr (State.endOfEvent_queue _ p)
  · rw [State.endOfEvent_slot]
    exact (event.slots q k).resolve_right fun ho => by rw [show (s.slot q k).isOpen = true from ho] at hq; cases hq

end Sys2Proof.Machine
end

section
/-! ## The checks of a CLAIM -/

namespace Sys2Proof.Machine

/-- One check of a list decided: the verdict refuses where it fails, and goes on to the next where it does not. -/
theorem Verdict.check {v v' : Verdict} {b : Bool} {st : Status} {P R G : Prop} [Decidable P]
    (hv : v = if b = true then .refused st else v') (hP : b = true ↔ P) (yes : v = .refused st → R) (no : v = v' → G) :
    if P then R else G := by
  by_cases h : P
  · rw [if_pos h]; exact yes (by rw [hv, if_pos (hP.mpr h)])
  · rw [if_neg h]; exact no (by rw [hv, if_neg fun hb => h (hP.mp hb)])

section
variable {s : State} {p : Port} {f : Frame}

theorem ClaimMode.ofCode_isNone {b : Byte} : (ClaimMode.ofCode b).isNone = true ↔ b ≠ 0 ∧ b ≠ 1 := by
  unfold ClaimMode.ofCode
  split
  · next h => simp [h]
  · next h =>
    split
    · next h' => simp [h']
    · next h' => exact ⟨fun _ => ⟨h, h'⟩, fun _ => rfl⟩

/-- The parameter check of a CLAIM, after its session and mode checks (R27). -/
def Frame.claimParameters (f : Frame) : List (Bool × Status) :=
  [(decide (7 < (f.byte 0).toNat), .badParameter),
   (decide ((f.byte 3).toNat = 0) || decide (4 < (f.byte 3).toNat) || (f.byte 3).toNat != f.itemCount, .badParameter),
   (f.itemBytes.any fun b => decide (63 < b.1.toNat), .badParameter),
   (f.itemBytes.any fun b => (ClaimMode.ofCode b.2).isNone, .badParameter)]

/-- The checks of a CLAIM against resources, slots, claims, notices and the pool (R28, R29). -/
def State.claimTableChecks (s : State) (p : Port) (f : Frame) : List (Bool × Status) :=
  [(f.items.any fun i => (s.resource i.resource).isNone, .undefinedResource),
   (f.items.any fun i => i.mode == .shared && !((s.kindOf i.resource).any Kind.isShareable), .badParameter),
   (f.items.any fun i => (s.kindOf i.resource).any Kind.isFaulted, .resourceFaulted),
   (s.slot p (handleOf (f.byte 0)) != .free, .handleInUse),
   (!decide ((f.items.map fun i => i.resource).Nodup), .duplicate),
   (f.items.any fun i => (s.claimOn p i.resource).isSome, .duplicate),
   (f.items.any fun i => s.revocationPending p i.resource, .revocationPending),
   (decide (s.freeCount < f.items.length), .noRoom)]

theorem State.claimChecks_eq (s : State) (p : Port) (f : Frame) : s.claimChecks p f =
    s.sessionChecks p f ++ (s.modeCheck .service :: (f.claimParameters ++ s.claimTableChecks p f)) := rfl

theorem State.taking_claimTableChecks : (s.taking .claim p f).claimTableChecks p f = s.claimTableChecks p f := by
  simp [State.claimTableChecks, State.revocationPending]

/-- What the checks of R28 and R29 leave of the verdict on a CLAIM. -/
def State.claimGo (s : State) (p : Port) (f : Frame) : Verdict :=
  acceptedAnswer p (handleOf (f.byte 0)) (f.items.map fun i => i.resource)
    (s.accept p (handleOf (f.byte 0)) f.items (f.word 1))

theorem State.OpenFor.claim_verdict (ho : s.OpenFor p f) (hm : s.mode = .service) :
    claimVerdict p f (s.taking .claim p f) =
      .checked (f.claimParameters ++ s.claimTableChecks p f) ((s.taking .claim p f).claimGo p f) := by
  rw [claimVerdict, State.claimChecks_eq, State.taking_claimTableChecks,
    Verdict.checked_append (State.sessionChecks_open ho.taking), State.modeCheck, Verdict.checked_cons]
  simp only [State.taking_mode, hm, bne_self_eq_false, Bool.false_eq_true, if_false]
  rfl

theorem Frame.claimParameters_bad (h : 7 < (f.byte 0).toNat ∨ (f.byte 3).toNat = 0 ∨ 4 < (f.byte 3).toNat
    ∨ (f.byte 3).toNat ≠ f.itemCount ∨ (∃ b ∈ f.itemBytes, 63 < b.1.toNat ∨ (b.2 ≠ 0 ∧ b.2 ≠ 1))) :
    firstRefusal f.claimParameters = some .badParameter := by
  cases hr : firstRefusal f.claimParameters with
  | none =>
    have good := firstRefusal_none.mp hr
    simp only [Frame.claimParameters, List.forall_mem_cons, List.any_eq_false, ClaimMode.ofCode_isNone,
      decide_eq_false_iff_not, decide_eq_true_eq, Bool.or_eq_false_iff, bne_eq_false_iff_eq] at good
    obtain ⟨g1, ⟨⟨g2, g3⟩, g4⟩, g5, g6, -⟩ := good
    rcases h with h | h | h | h | ⟨b, hb, h | h⟩
    · exact absurd h g1
    · exact absurd h g2
    · exact absurd h g3
    · exact absurd g4 h
    · exact absurd h (g5 b hb)
    · exact absurd h (g6 b hb)
  | some st =>
    have := firstRefusal_mem hr
    simp only [Frame.claimParameters, List.mem_cons, Prod.mk.injEq, List.not_mem_nil, or_false] at this
    obtain ⟨-, rfl⟩ | ⟨-, rfl⟩ | ⟨-, rfl⟩ | ⟨-, rfl⟩ := this <;> rfl

theorem Frame.claimParameters_good (h0 : (f.byte 0).toNat ≤ 7) (h1 : 1 ≤ (f.byte 3).toNat) (h2 : (f.byte 3).toNat ≤ 4)
    (h3 : (f.byte 3).toNat = f.itemCount) (hb : ∀ b ∈ f.itemBytes, b.1.toNat ≤ 63 ∧ (b.2 = 0 ∨ b.2 = 1)) :
    firstRefusal f.claimParameters = none := by
  refine firstRefusal_none.mpr ?_
  simp only [Frame.claimParameters, List.forall_mem_cons, List.any_eq_false, ClaimMode.ofCode_isNone,
    decide_eq_false_iff_not, decide_eq_true_eq, Bool.or_eq_false_iff, bne_eq_false_iff_eq]
  exact ⟨by omega, ⟨⟨by omega, by omega⟩, h3⟩, fun b hm => by have := (hb b hm).1; omega,
    fun b hm hn => (hb b hm).2.elim hn.1 hn.2, nofun⟩

/-- An accepted CLAIM is answered GRANTED or ACCEPTED (R31). -/
theorem State.Offered.claim_accepted (h : s.Offered .claim p f)
    (hv : claimVerdict p f (s.taking .claim p f) = (s.taking .claim p f).claimGo p f) :
    ∃ u st body, exec (.claim p) s = .next u ∧ s.Answered u p f st body ∧ (st = .granted ∨ st = .accepted) := by
  unfold State.claimGo acceptedAnswer at hv
  split at hv
  · obtain ⟨hexec, hans, -⟩ := h.executed hv
    exact ⟨_, _, _, hexec, hans, .inl rfl⟩
  · obtain ⟨hexec, hans, -⟩ := h.executed hv
    exact ⟨_, _, _, hexec, hans, .inr rfl⟩

theorem not_any_iff {α : Type} {o : Option α} {q : α → Bool} : (!o.any q) = true ↔ ∀ a, o = some a → q a = false := by
  cases o <;> simp

theorem State.claimOn_isSome {x : ResNo} : (s.claimOn p x).isSome = true ↔ ∃ c ∈ s.claims, c.owner = p ∧ c.resource = x := by
  simp [State.claimOn, List.find?_isSome]
end

/-- Settles O8: the checks in their order, each decided in turn. -/
theorem claimChecksInOrder : Obligations.ClaimChecksInOrder := by
  refine ⟨fun p f s h ho hm hbad => ?_, fun p f s h ho hm h0 h1 h2 h3 hb => ?_⟩
  · refine h.refused ((ho.claim_verdict hm).trans ?_) (by simp)
    exact Verdict.checked_append_some (Frame.claimParameters_bad hbad)
  · have verdict := ho.claim_verdict hm
    rw [Verdict.checked_append (Frame.claimParameters_good h0 h1 h2 h3 hb), State.claimTableChecks] at verdict
    simp only [Verdict.checked_cons, Verdict.checked_nil] at verdict
    intro refused
    have refuse : ∀ st, claimVerdict p f (s.taking .claim p f) = .refused st → st ≠ .sessionSevered → refused st :=
      fun st hv hst => h.refused hv hst
    refine Verdict.check verdict ?_ (fun hv => refuse _ hv (by simp)) fun verdict => ?_
    · simp
    refine Verdict.check verdict ?_ (fun hv => refuse _ hv (by simp)) fun verdict => ?_
    · simp only [List.any_eq_true, Bool.and_eq_true, beq_iff_eq, not_any_iff]
    refine Verdict.check verdict ?_ (fun hv => refuse _ hv (by simp)) fun verdict => ?_
    · simp [Option.any_eq_true]
    refine Verdict.check verdict ?_ (fun hv => refuse _ hv (by simp)) fun verdict => ?_
    · simp
    refine Verdict.check verdict ?_ (fun hv => refuse _ hv (by simp)) fun verdict => ?_
    · simp
    refine Verdict.check verdict ?_ (fun hv => refuse _ hv (by simp)) fun verdict => ?_
    · simp [State.claimOn_isSome]
    refine Verdict.check verdict ?_ (fun hv => refuse _ hv (by simp)) fun verdict => ?_
    · simp [State.revocationPending]
    refine Verdict.check verdict ?_ (fun hv => refuse _ hv (by simp)) fun verdict => ?_
    · simp
    exact h.claim_accepted verdict

end Sys2Proof.Machine
end

section
/-! ## CANCEL -/

namespace Sys2Proof.Machine

section
variable {s t : State} {k : RequestKind} {p : Port} {h : Handle} {f : Frame}

/-- What the execution of a request of the Claim Table leaves alone outside its table. -/
theorem State.SameOutsideClaimTable.served (o : (s.taking k p f).SameOutsideClaimTable t) (st : Status) (body : List Byte) :
    let u := t.endOfEvent.place p f st body true
    s.SameSupervision u ∧ s.SameInputs u ∧ s.SameEvents u ∧ ∀ q, q ≠ p → u.session q = s.session q ∧ u.port q = s.port q := by
  intro u
  have o' := o.trans t.endOfEvent_outside
  refine ⟨⟨o'.mode.trans (by simp), o'.supervisor.trans (by simp), o'.threshold.trans (by simp), o'.recovery.trans (by simp),
    o'.filterTime.trans (by simp)⟩, ⟨o'.confirmInputs.trans (by simp), o'.severInputs.trans (by simp), o'.now.trans (by simp),
    o'.pending.trans (by simp)⟩, ⟨o'.ackEvents.trans (by simp), o'.liveReports.trans (by simp)⟩, fun q hq => ⟨?_, ?_⟩⟩
  · exact (o'.session q).trans (State.taking_session_other s k p f q hq)
  · rw [State.place_port_other hq, o'.port, State.taking_port_other hq]

theorem handleOf_eq {b : Byte} (e : b.toNat = h.val) : handleOf b = h := by
  apply Fin.ext
  simp [handleOf, Fin.ofNat, e, Nat.mod_eq_of_lt h.isLt]

/-- The checks of a CANCEL after its session check (R42, R45). -/
theorem State.OpenFor.cancel_verdict (ho : s.OpenFor p f) : cancelVerdict p f (s.taking .cancel p f) =
    if 7 < (f.byte 0).toNat then .refused .badParameter
    else if (s.slot p (handleOf (f.byte 0))).isOpen = false then .refused .notWaiting
    else .executed .ok [] ((s.taking .cancel p f).cancelRequest p (handleOf (f.byte 0))) := by
  rw [cancelVerdict, Verdict.checked_append (State.sessionChecks_open ho.taking)]
  simp

theorem State.Offered.cancel_executed (hof : s.Offered .cancel p f) (ho : s.OpenFor p f) (hh : (f.byte 0).toNat = h.val)
    (hs : (s.slot p h).isOpen = true) :
    let u := ((s.taking .cancel p f).cancelRequest p h).endOfEvent.place p f .ok [] true
    exec (.cancel p) s = .next u ∧ s.Answered u p f .ok [] := by
  have verdict := ho.cancel_verdict
  have hle : ¬ 7 < (f.byte 0).toNat := by have := h.isLt; omega
  rw [handleOf_eq hh, if_neg hle, hs, if_neg (by simp)] at verdict
  obtain ⟨hexec, hans, -⟩ := hof.executed verdict
  exact ⟨hexec, hans⟩

/-- The request without its claims and its slot, before the evaluation of R43. -/
def State.dropped (s : State) (p : Port) (h : Handle) : State :=
  (s.removeClaims (Claim.ofRequest p h)).setSlot p h .free

theorem State.dropped_tableEvent (s : State) (p : Port) (h : Handle) (ho : (s.slot p h).isOpen = true) :
    s.TableEvent (s.dropped p h) :=
  (State.removeClaims_tableEvent s _).trans (State.setSlot_tableEvent _ p h .free (by rwa [State.slot_removeClaims]))

theorem State.cancelRequest_eq (s : State) (p : Port) (h : Handle) :
    s.cancelRequest p h = (s.dropped p h).evaluate (s.itemResources p h) := rfl

theorem State.dropped_slot (s : State) (p : Port) (h : Handle) (q : Port) (k : Handle) :
    (s.dropped p h).slot q k = if p = q ∧ h = k then .free else s.slot q k := by
  rw [State.dropped, State.slot_setSlot, State.slot_removeClaims]

theorem State.dropped_claims (s : State) (p : Port) (h : Handle) :
    (s.dropped p h).claims = s.claims.filter fun c => !Claim.ofRequest p h c := State.removeClaims_claims s _

theorem State.dropped_queues (s : State) (p : Port) (h : Handle) : (s.dropped p h).queues = s.queues :=
  State.removeClaims_queues s _

theorem State.dropped_noRequest (s : State) (p : Port) (h : Handle) : (s.dropped p h).NoRequest p h := fun c hc => by
  rw [State.dropped_claims] at hc
  simpa using (List.mem_filter.mp hc).2

/-- Where the request's own claims are all that wait for its resources, nothing moves up (R43). -/
theorem State.cancelRequest_alone (s : State) (p : Port) (h : Handle)
    (hw : ∀ i ∈ (s.slot p h).items, ∀ c ∈ s.waitQueue i.resource, Claim.ofRequest p h c = true) :
    s.cancelRequest p h = s.dropped p h := by
  rw [State.cancelRequest_eq]
  refine State.evaluate_nothing_waits _ _ fun x hx => ?_
  obtain ⟨i, hi, rfl⟩ := List.mem_map.mp hx
  rw [State.waitQueue, State.dropped_claims, List.filter_filter, List.filter_eq_nil_iff]
  intro c hc hwait
  simp only [Bool.and_eq_true, beq_iff_eq] at hwait
  have := hw i hi c (State.mem_waitQueue.mpr ⟨hc, hwait.1.1, hwait.1.2⟩)
  simp [this] at hwait
end

/-- Settles O27: the claims of the request go and its slot is FREE, and an evaluation gives it no claim. -/
theorem cancelDropsTheRequest : Obligations.CancelDropsTheRequest := by
  intro p f s hof ho t
  have verdict := ho.cancel_verdict
  refine ⟨fun hbad => hof.refused (verdict.trans (if_pos hbad)) (by simp), fun h hh => ⟨fun hclosed => ?_, fun hopen => ?_⟩⟩
  · refine hof.refused (verdict.trans ?_) (by simp)
    rw [if_neg (by have := h.isLt; omega), handleOf_eq hh, if_pos hclosed]
  obtain ⟨hexec, hans⟩ := hof.cancel_executed ho hh hopen
  have dropped := (s.taking .cancel p f).dropped_tableEvent p h (by simpa using hopen)
  have event := dropped.trans (State.evaluate_tableEvent _ ((s.taking .cancel p f).itemResources p h))
  obtain ⟨hsup, hin, hev, hother⟩ := event.outside.served .ok []
  refine ⟨_, hexec, hans, ?_, fun c hc => ?_, fun q k hne => ?_, fun hw => ?_, hsup, hin, hev, hother⟩
  · rw [State.slot_place, State.endOfEvent_slot, State.cancelRequest_eq]
    refine (State.evaluateWith_slot none _ _ p h ?_).trans ?_ <;> rw [State.dropped_slot, if_pos ⟨rfl, rfl⟩]
    rfl
  · rw [State.place_claims, State.endOfEvent_claims, State.cancelRequest_eq] at hc
    exact ((s.taking .cancel p f).dropped_noRequest p h).evaluateWith none _ _ c hc
  · rw [State.slot_place, State.endOfEvent_slot, State.cancelRequest_eq]
    simpa using event.slots q k
  · have alone := (s.taking .cancel p f).cancelRequest_alone p h (by simpa using hw)
    rw [State.place_claims, State.endOfEvent_claims, State.place_queues, State.endOfEvent_queues, alone, State.dropped_claims,
      State.dropped_queues]
    refine ⟨by simp, by simp, fun q k hne => ?_⟩
    rw [State.slot_place, State.endOfEvent_slot, State.dropped_slot, if_neg fun e => hne ⟨e.1.symm, e.2.symm⟩,
      State.taking_slot]

end Sys2Proof.Machine
end

section
/-! ## What a removal leaves of the reports -/

namespace Sys2Proof.Machine

/-- A removal ends the phase of a LINE resource in this state, so that its reports are current no longer (R77). -/
def Kind.ends : Kind → Bool
  | .line _ .verify _ => true
  | .line _ .engage _ => true
  | .line _ .held _ => true
  | _ => false

/-- No report about the resource is current. -/
def State.Stale (s : State) (x : ResNo) : Prop := ∀ r ∈ s.lineReports, r.resource = x → r.current = false

/-- The reports about a resource. -/
def State.reportsOn (s : State) (x : ResNo) : List LineReport := s.lineReports.filter fun r => r.resource == x

section
variable (s : State) (x y : ResNo)

theorem State.staleReports_stale : (s.staleReports x).Stale x := by
  intro r hr hx
  obtain ⟨r', -, rfl⟩ := List.mem_map.mp hr
  by_cases e : r'.resource = x
  · rw [if_pos e]
  · rw [if_neg e] at hx; exact absurd hx e

theorem State.Stale.staleReports {s : State} {y : ResNo} (h : s.Stale y) : (s.staleReports x).Stale y := by
  intro r hr hy
  obtain ⟨r', hr', rfl⟩ := List.mem_map.mp hr
  by_cases e : r'.resource = x
  · rw [if_pos e]
  · rw [if_neg e] at hy ⊢; exact h r' hr' hy

theorem State.reportsOn_staleReports (h : y ≠ x) : (s.staleReports x).reportsOn y = s.reportsOn y := by
  rw [State.reportsOn, State.staleReports, State.lineReports_setLineReports, List.filter_map]
  have hf : (fun r => r.resource == y) ∘ (fun r : LineReport => if r.resource = x then { r with current := false } else r) =
      fun r => r.resource == y := funext fun r => by
    rw [Function.comp_apply]; split <;> rfl
  rw [hf, State.reportsOn]
  refine (List.map_congr_left fun r hr => if_neg fun e => h ?_).trans (List.map_id _)
  rw [← e, ← beq_iff_eq.mp (List.mem_filter.mp hr).2]

theorem State.Stale.congr {s t : State} {x : ResNo} (h : s.Stale x) (e : t.lineReports = s.lineReports) : t.Stale x := by
  unfold State.Stale; rw [e]; exact h

theorem State.reportsOn_congr {s t : State} (e : t.lineReports = s.lineReports) : t.reportsOn x = s.reportsOn x := by
  unfold State.reportsOn; rw [e]

/-- The orders of a removal are those that end the phase (R56, R94, R95). -/
theorem State.settle_lineReports : (s.settle x).lineReports = s.lineReports ∧ ((s.kindOf x).any Kind.ends = false)
    ∨ ((s.settle x).lineReports = (s.staleReports x).lineReports
      ∨ (s.settle x).lineReports = ((s.staleReports x).staleReports x).lineReports) ∧ (s.kindOf x).any Kind.ends = true := by
  unfold State.settle
  split
  · next hk => exact .inl ⟨rfl, by rw [hk]; rfl⟩
  · next sh st hne hk => exact .inl ⟨rfl, by rw [hk]; rfl⟩
  · next hk => exact .inl ⟨rfl, by rw [hk]; rfl⟩
  · next hk => exact .inr ⟨.inl rfl, by rw [hk]; rfl⟩
  · next hk => exact .inr ⟨.inr rfl, by rw [hk]; rfl⟩
  · next hk => exact .inr ⟨.inr rfl, by rw [hk]; rfl⟩
  · next h1 h2 h3 h4 h5 h6 =>
    refine .inl ⟨rfl, ?_⟩
    cases hk : s.kindOf x with
    | none => rfl
    | some k =>
      rw [Option.any_some]
      rcases k with ⟨sh, st⟩ | ⟨d, st, lu⟩
      · rfl
      · cases st with
        | verify => exact absurd hk (h4 d lu)
        | engage => exact absurd hk (h5 d lu)
        | held => exact absurd hk (h6 d lu)
        | vacant | cooling | guard | faulted => rfl

theorem State.Stale.settle {s : State} {y : ResNo} (h : s.Stale y) : (s.settle x).Stale y := by
  rcases s.settle_lineReports x with ⟨e, -⟩ | ⟨e | e, -⟩
  · exact h.congr e
  · exact (h.staleReports x).congr e
  · exact ((h.staleReports x).staleReports x).congr e

theorem State.settle_stale (h : (s.kindOf x).any Kind.ends = true) : (s.settle x).Stale x := by
  rcases s.settle_lineReports x with ⟨-, e⟩ | ⟨e | e, -⟩
  · rw [h] at e; cases e
  · exact (s.staleReports_stale x).congr e
  · exact (State.staleReports_stale _ x).congr e

theorem State.reportsOn_settle (h : y ≠ x ∨ (s.kindOf x).any Kind.ends = false) : (s.settle x).reportsOn y = s.reportsOn y := by
  rcases s.settle_lineReports x with ⟨e, -⟩ | ⟨e, ends⟩
  · exact State.reportsOn_congr y e
  · have hne : y ≠ x := h.resolve_right (by rw [ends]; simp)
    rcases e with e | e
    · rw [State.reportsOn_congr y e, State.reportsOn_staleReports s x y hne]
    · rw [State.reportsOn_congr y e, State.reportsOn_staleReports _ x y hne, State.reportsOn_staleReports s x y hne]

/-- A resource settled from a state whose phase goes on has no phase that ends. -/
theorem Kind.ends_settled {k : Kind} (h : k.ends = false) (empty : Bool) (now : Time) : (k.settled empty now).ends = false := by
  rcases k with ⟨sh, st⟩ | ⟨d, st, lu⟩
  · cases st <;> rfl
  · cases st
    case verify | engage | held => cases h
    case vacant | cooling | guard | faulted => rfl

theorem State.foldl_settle_reportsOn (xs : List ResNo) (s : State) (h : y ∉ xs ∨ (s.kindOf y).any Kind.ends = false) :
    (xs.foldl State.settle s).reportsOn y = s.reportsOn y := by
  induction xs generalizing s with
  | nil => rfl
  | cons x xs ih =>
    rw [List.foldl_cons]
    by_cases e : y = x
    · subst e
      have hk : (s.kindOf y).any Kind.ends = false := h.resolve_left (by simp)
      rw [ih, State.reportsOn_settle s y y (.inr hk)]
      right
      cases hy : s.kindOf y with
      | none =>
        have : (s.settle y).kindOf y = none := by
          have := (State.settle_lineOrder s y).isSome y
          revert hy this
          unfold State.kindOf
          cases s.resource y <;> cases (s.settle y).resource y <;> simp
        rw [this]; rfl
      | some k =>
        rw [State.kindOf_settle hy]
        rw [hy] at hk
        exact Kind.ends_settled hk _ _
    · rw [ih, State.reportsOn_settle s x y (.inl e)]
      have : (s.settle x).kindOf y = s.kindOf y := by simp [State.kindOf, (State.settle_lineOrder s x).others y e]
      rw [this]
      exact h.imp_left fun hn hm => hn (List.mem_cons_of_mem _ hm)

theorem State.Stale.foldl_settle {s : State} {y : ResNo} (h : s.Stale y) (xs : List ResNo) : (xs.foldl State.settle s).Stale y := by
  induction xs generalizing s with
  | nil => exact h
  | cons x xs ih => exact ih (h.settle x)

theorem State.foldl_settle_stale (xs : List ResNo) (s : State) (hy : y ∈ xs) (h : (s.kindOf y).any Kind.ends = true) :
    (xs.foldl State.settle s).Stale y := by
  induction xs generalizing s with
  | nil => cases hy
  | cons x xs ih =>
    rw [List.foldl_cons]
    by_cases e : y = x
    · subst e
      exact (s.settle_stale y h).foldl_settle xs
    · refine ih _ ((List.mem_cons.mp hy).resolve_left e) ?_
      have : (s.settle x).kindOf y = s.kindOf y := by simp [State.kindOf, (State.settle_lineOrder s x).others y e]
      rwa [this]

/-! ### Removals -/

variable (sel : Claim → Bool)

theorem State.mem_settled : x ∈ ((s.claims.filter fun c => sel c && c.state.isAssigned).map fun c => c.resource) ↔
    ∃ c ∈ s.assigned x, sel c = true := by
  simp only [List.mem_map, List.mem_filter, Bool.and_eq_true, State.mem_assigned]
  constructor
  · rintro ⟨c, ⟨hc, h1, h2⟩, rfl⟩; exact ⟨c, ⟨hc, rfl, h2⟩, h1⟩
  · rintro ⟨c, ⟨hc, h1, h2⟩, h3⟩; exact ⟨c, ⟨hc, h3, h2⟩, h1⟩

theorem State.reportsOn_removeClaims (h : (∀ c ∈ s.assigned x, sel c = false) ∨ (s.kindOf x).any Kind.ends = false) :
    (s.removeClaims sel).reportsOn x = s.reportsOn x := by
  refine State.foldl_settle_reportsOn x _ (s.setClaims _) (h.imp_left fun hn hm => ?_)
  obtain ⟨c, hc, hs⟩ := (State.mem_settled s x sel).mp hm
  rw [hn c hc] at hs; cases hs

theorem State.removeClaims_stale (h : ∃ c ∈ s.assigned x, sel c = true) (hk : (s.kindOf x).any Kind.ends = true) :
    (s.removeClaims sel).Stale x :=
  State.foldl_settle_stale x _ (s.setClaims _) ((State.mem_settled s x sel).mpr h) hk

theorem State.assigned_removeClaims : (s.removeClaims sel).assigned x = (s.assigned x).filter fun c => !sel c := by
  rw [State.assigned, State.removeClaims_claims, State.assigned, List.filter_filter, List.filter_filter]
  exact List.filter_congr fun c _ => Bool.and_comm _ _

/-- The resource `x` has been settled between `s` and `u`, and its reports with it (R44, R56, R77, R94, R95). -/
structure State.Settled (s u : State) (x : ResNo) : Prop where
  resource : u.resource x =
    (s.resource x).map fun r => { r with kind := r.kind.settled (u.assigned x).isEmpty s.now }
  stands : (s.kindOf x).any Kind.ends = false → u.reportsOn x = s.reportsOn x
  ends : (s.kindOf x).any Kind.ends = true → u.Stale x

theorem State.removeClaims_settled (h : ∃ c ∈ s.assigned x, sel c = true) : s.Settled (s.removeClaims sel) x where
  resource := by rw [State.removeClaims_resource, if_pos h, State.assigned_removeClaims]
  stands hk := s.reportsOn_removeClaims x sel (.inr hk)
  ends hk := s.removeClaims_stale x sel h hk

theorem State.Settled.unwound {s u : State} {x : ResNo} (a : s.Settled u x) {r : Resource} (hr : s.resource x = some r) :
    s.ResourceUnwound u x r := by
  have hk : s.kindOf x = some r.kind := by simp [State.kindOf, hr]
  have hres := a.resource
  rw [hr, Option.map_some] at hres
  have stale : r.kind.ends = true → u.Stale x := fun he => a.ends (by rw [hk]; exact he)
  refine ⟨fun sh st e hne => ?_, fun d lu e => ⟨?_, ?_⟩, fun d lu e => ⟨?_, stale (by rw [e]; rfl)⟩, fun d st lu e hst => ⟨?_, ?_⟩⟩
  · rw [hres, e]
    cases st with
    | faulted => exact absurd rfl hne
    | vacant | occupied => simp [Kind.settled, List.isEmpty_iff]
  · rw [hres, e]; rfl
  · exact a.stands (by rw [hk, e]; rfl)
  · rw [hres, e]; rfl
  · rw [hres, e]
    rcases hst with rfl | rfl <;> rfl
  · exact stale (by rw [e]; rcases hst with rfl | rfl <;> rfl)

/-- R44, R56, R94, R95: a resource that loses an assigned claim is unwound. -/
theorem State.removeClaims_unwound {r : Resource} (hr : s.resource x = some r) (h : ∃ c ∈ s.assigned x, sel c = true) :
    s.ResourceUnwound (s.removeClaims sel) x r := (s.removeClaims_settled x sel h).unwound hr
end

theorem State.ResourceUnwound.congr {s s' u u' : State} {x : ResNo} {r : Resource} (a : s.ResourceUnwound u x r)
    (hn : s'.now = s.now) (hl : s'.lineReports = s.lineReports) (hc : u'.claims = u.claims) (hr : u'.resource x = u.resource x)
    (hu : u'.lineReports = u.lineReports) : s'.ResourceUnwound u' x r := by
  have ha : u'.assigned x = u.assigned x := by simp [State.assigned, hc]
  unfold State.ResourceUnwound at *
  rw [hn, hl, hr, hu, ha]
  exact a

/-- Settles O28: the removal settles each resource that lost an assigned claim, and nobody moves up behind the CANCEL. -/
theorem removalLeavesTheResource : Obligations.RemovalLeavesTheResource := by
  refine ⟨fun sel s => ⟨State.removeClaims_claims s sel, fun x => ⟨State.removeClaims_resource_other s sel x, fun r hr h =>
    s.removeClaims_unwound x sel hr h⟩⟩, fun p h f fl pend s hof ho hh hs hw => ?_⟩
  obtain ⟨hexec, hans⟩ := hof.cancel_executed ho hh (by rw [hs]; rfl)
  have alone := (s.taking .cancel p f).cancelRequest_alone p h fun i hi c hc => by
    rw [State.taking_slot, hs] at hi
    rw [State.taking_waitQueue, hw i hi] at hc
    cases hc
  rw [alone] at hexec hans
  have event := (s.taking .cancel p f).dropped_tableEvent p h (by rw [State.taking_slot, hs]; rfl)
  obtain ⟨hsup, hin, hev, hother⟩ := event.outside.served .ok []
  have claims := (s.taking .cancel p f).dropped_claims p h
  refine ⟨_, hexec, hans, ?_, ?_, fun q k hne => ?_, ?_, fun x => ⟨fun hn => ⟨?_, ?_⟩, fun r hr hc => ?_⟩, hsup, hin, hev, hother⟩
  · rw [State.place_claims, State.endOfEvent_claims, claims, State.taking_claims]
  · rw [State.slot_place, State.endOfEvent_slot, State.dropped_slot, if_pos ⟨rfl, rfl⟩]
  · rw [State.slot_place, State.endOfEvent_slot, State.dropped_slot, if_neg fun e => hne ⟨e.1.symm, e.2.symm⟩, State.taking_slot]
  · rw [State.place_queues, State.endOfEvent_queues, State.dropped_queues, State.taking_queues]
  · rw [State.resource_place, State.endOfEvent_resource]
    exact (State.removeClaims_resource_other _ _ x (by simpa using hn)).trans (State.taking_resource s _ p f x)
  · rw [State.place_lineReports, State.endOfEvent_lineReports]
    refine ((s.taking .cancel p f).reportsOn_removeClaims x (Claim.ofRequest p h) (.inl (by simpa using hn))).trans ?_
    simp [State.reportsOn]
  · refine ((s.taking .cancel p f).removeClaims_unwound x (Claim.ofRequest p h) (by simpa using hr) (by simpa using hc)).congr
      (by simp) (by simp) ?_ ?_ ?_
    · rw [State.place_claims, State.endOfEvent_claims]; rfl
    · rw [State.resource_place, State.endOfEvent_resource]; rfl
    · rw [State.place_lineReports, State.endOfEvent_lineReports]; rfl

end Sys2Proof.Machine
end

section
/-! ## The completion of an item and the grant -/

namespace Sys2Proof.Machine

section
variable {s : State} {p : Port} {h : Handle} {x : ResNo} {fl : Filing} {pend : List ResNo}

theorem State.lineState_of_kindOf {d : LineDef} {st : LineState} {lu : PhaseRecord} (hk : s.kindOf x = some (.line d st lu)) :
    s.lineState x = some st := by simp [State.lineState, hk]

/-- The effect of a current "engaged seen" of a pending item (R91). -/
theorem State.onEngagedSeen_pending {d : LineDef} {lu : PhaseRecord} (hk : s.kindOf x = some (.line d .engage lu))
    (hs : s.slot p h = .assembling fl pend) (hr : s.reservingRequest x = some (p, h)) (hx : x ∈ pend) :
    State.onEngagedSeen x s = if (pend.erase x).isEmpty then
        (State.grant none (s.setSlot p h (.assembling fl (pend.erase x))) p h).evaluate ((s.itemResources p h).filter s.isLineRes)
      else s.setSlot p h (.assembling fl (pend.erase x)) := by
  have hl : s.lineState x = some .engage := State.lineState_of_kindOf hk
  simp [State.onEngagedSeen, hl, hr, State.completeItem, hs, hx]

/-- The grant of a request that is not the one being accepted (R40). -/
theorem State.grant_none (hs : s.slot p h = .assembling fl pend) : State.grant none s p h =
    let xs := fl.items.map Item.resource
    let s1 := xs.foldl (fun s x => s.grantItem p h x) s
    (s1.notify p (.granted h (s1.grantNumbers xs))).setSlot p h (.done fl.incarnation .granted) := by
  simp [State.grant, hs]

theorem State.grantedClaims_assigned {c : Claim} {xs : List ResNo} (hc : c ∈ s.claims) (ho : Claim.ofRequest p h c = true)
    (hr : c.state.isReserved = true) (hx : c.resource ∈ xs) : s.granted c ∈ s.grantedClaims p h xs :=
  List.mem_map.mpr ⟨c, hc, if_pos ⟨ho, hr, hx⟩⟩

/-- The grant of a request with distinct, defined items, field by field (R8, R40, R41, R91). -/
structure State.Grants (s u : State) (p : Port) (h : Handle) (fl : Filing) : Prop where
  outside : s.SameOutsideClaimTable u
  slot : ∀ q k, u.slot q k = if p = q ∧ h = k then .done fl.incarnation .granted else s.slot q k
  claims : u.claims = s.grantedClaims p h (fl.items.map Item.resource)
  resource : ∀ y, u.resource y = if y ∈ fl.items.map Item.resource then (s.resource y).map Resource.granted else s.resource y
  queue : ∀ q, u.queue q = if p = q ∧ s.isOpen p = true then
    (s.queue p).add (.granted h (fl.items.map fun i => (i.resource, s.grantOf i.resource + 1))) else s.queue q
  lineReports : u.lineReports = s.lineReports

theorem State.grant_grants (hs : s.slot p h = .assembling fl pend) (hn : (fl.items.map Item.resource).Nodup)
    (hd : ∀ i ∈ fl.items, (s.resource i.resource).isSome = true) : s.Grants (State.grant none s p h) p h fl := by
  have defined : ∀ x ∈ fl.items.map Item.resource, (s.resource x).isSome = true := fun x hx => by
    obtain ⟨i, hi, rfl⟩ := List.mem_map.mp hx
    exact hd i hi
  have outside := (State.grant_tableEvent none s p h).outside
  have items := (State.TableEvent.foldl (fun s x => s.grantItem p h x) (fun s x => State.grantItem_tableEvent s p h x)
    (fl.items.map Item.resource) s).outside
  have numbers := State.grantNumbers_grants p h _ hn s defined
  rw [List.map_map] at numbers
  rw [State.grant_none hs] at outside ⊢
  refine ⟨outside, fun q k => ?_, ?_, fun y => ?_, fun q => ?_, ?_⟩
  · simp only [State.slot_setSlot, State.slot_notify, State.slot_foldl_grantItem]
  · exact (State.notify_claims _ p _).trans (State.grants_claims p h _ hn s defined)
  · simp only [State.resource_setSlot]
    rw [State.resource, State.notify_resources]
    exact State.grants_resource p h _ hn s y
  · simp only [State.queue_setSlot, State.queue_notify, items.isOpen, numbers]
    have queue : ∀ r, ((fl.items.map Item.resource).foldl (fun s x => s.grantItem p h x) s).queue r = s.queue r :=
      fun r => by simp [State.queue, State.grants_queues]
    rw [queue, queue]
    rfl
  · exact (State.notify_lineReports _ p _).trans (State.grants_lineReports p h _ s)
end

/-- Settles O26: the last item seen engaged grants the request, and behind its EXCLUSIVE claims nobody moves up. -/
theorem engagedSeenCompletesAndGrants : Obligations.EngagedSeenCompletesAndGrants := by
  intro p h x fl pend d lu s hrep hk hs hreq hx
  have exec_eq : exec (.engagedSeen x) s = .next (State.onEngagedSeen x (s.dropReport x)).endOfEvent :=
    congrArg Host.Outcome.next (State.takeReport_current hrep)
  have effect := State.onEngagedSeen_pending (s := s.dropReport x) hk hs hreq hx
  refine ⟨fun hne => ?_, fun hnil hnd hdef hexcl => ?_⟩
  · rw [effect, if_neg (by simpa using hne)] at exec_eq
    refine ⟨_, exec_eq, ?_, fun q k hqk => ?_, ?_, ?_, ?_, ?_, ?_⟩
    · rw [State.endOfEvent_slot, State.slot_setSlot, if_pos ⟨rfl, rfl⟩]
    · rw [State.endOfEvent_slot, State.slot_setSlot, if_neg fun e => hqk ⟨e.1.symm, e.2.symm⟩]; rfl
    · rw [State.endOfEvent_lineReports]; rfl
    · rw [State.endOfEvent_claims]; rfl
    · rw [State.endOfEvent_resources]; rfl
    · rw [State.endOfEvent_queues]; rfl
    · exact ((s.dropReport_outside x).trans (by constructor <;> rfl)).trans (State.endOfEvent_outside _)
  · have grants := State.grant_grants (s := (s.dropReport x).setSlot p h (.assembling fl (pend.erase x))) (p := p) (h := h)
      (fl := fl) (pend := pend.erase x) (by simp) hnd hdef
    rw [effect, if_pos (by simp [hnil])] at exec_eq
    generalize State.grant none ((s.dropReport x).setSlot p h (.assembling fl (pend.erase x))) p h = u at grants exec_eq
    have outside : s.SameOutsideClaimTable u := ((s.dropReport_outside x).trans (by constructor <;> rfl)).trans grants.outside
    have idle : u.evaluate (((s.dropReport x).itemResources p h).filter (s.dropReport x).isLineRes) = u := by
      refine State.evaluate_idle u _ fun y hy q k hq => ?_
      obtain ⟨hy, hl⟩ := List.mem_filter.mp hy
      obtain ⟨i, hi, rfl⟩ := List.mem_map.mp hy
      rw [show (s.dropReport x).slot p h = s.slot p h from rfl, hs] at hi
      obtain ⟨c, hc, ho, hr, hcr, hm⟩ := hexcl i hi hl
      have hin : s.granted c ∈ u.claims := grants.claims ▸
        State.grantedClaims_assigned (s := (s.dropReport x).setSlot p h _) hc ho hr (hcr ▸ List.mem_map_of_mem hi)
      exact State.not_ready_of_exclusive (State.mem_assigned.mpr ⟨hin, hcr, rfl⟩) hm q k hq
    rw [idle] at exec_eq
    refine ⟨_, exec_eq, ?_, fun q k hqk => ?_, ?_, fun i hi r hr => ?_, fun y hy => ?_, fun hp => ?_, fun q hq => ?_, ?_,
      outside.trans u.endOfEvent_outside⟩
    · rw [State.endOfEvent_slot, grants.slot, if_pos ⟨rfl, rfl⟩]
    · rw [State.endOfEvent_slot, grants.slot, if_neg fun e => hqk ⟨e.1.symm, e.2.symm⟩, State.slot_setSlot,
        if_neg fun e => hqk ⟨e.1.symm, e.2.symm⟩]
      rfl
    · rw [State.endOfEvent_claims, grants.claims]; rfl
    · rw [State.endOfEvent_resource, grants.resource, if_pos (List.mem_map_of_mem hi)]
      exact congrArg (Option.map Resource.granted) hr
    · rw [State.endOfEvent_resource, grants.resource, if_neg hy]; rfl
    · rw [State.endOfEvent_queue, grants.queue, if_pos ⟨rfl, hp⟩]; rfl
    · rw [State.endOfEvent_queue, grants.queue, if_neg fun e => hq e.1.symm]; rfl
    · rw [State.endOfEvent_lineReports, grants.lineReports]; rfl

end Sys2Proof.Machine
end

section
/-! ## What an evaluation leaves of failures, revocations and faults -/

namespace Sys2Proof.Machine

/-! ### Resources of no item -/

section
variable {s : State} {y : ResNo}

theorem State.foldl_grantItem_resource_other (p : Port) (h : Handle) (xs : List ResNo) (s : State) (hy : y ∉ xs) :
    (xs.foldl (fun s x => s.grantItem p h x) s).resource y = s.resource y := by
  induction xs generalizing s with
  | nil => rfl
  | cons x xs ih =>
    rw [List.mem_cons, not_or] at hy
    rw [List.foldl_cons, ih _ hy.2, State.grantItem_resource, if_neg (Ne.symm hy.1)]

theorem State.grant_resource_other (imm : Option (Port × Handle)) (p : Port) (h : Handle) (hy : y ∉ s.itemResources p h) :
    (State.grant imm s p h).resource y = s.resource y := by
  unfold State.grant
  split
  · next f pend hs =>
    rw [State.itemResources, hs] at hy
    have items := State.foldl_grantItem_resource_other p h (f.items.map fun i => i.resource) s hy
    dsimp only
    split
    · exact items
    · rw [State.resource_setSlot, State.resource, State.notify_resources]
      exact items
  · rfl

theorem State.reserved_resource_other (p : Port) (h : Handle) (f : Filing) (hy : y ∉ f.items.map fun i => i.resource) :
    (s.reserved p h f).resource y = s.resource y := (State.foldl_beginItem_lineOrder p _ _).2.2.2 y hy

theorem State.reserve_resource_other (imm : Option (Port × Handle)) (p : Port) (h : Handle) (hy : y ∉ s.itemResources p h) :
    (State.reserve imm s p h).resource y = s.resource y := by
  cases hs : s.slot p h with
  | waiting f t =>
    rw [State.itemResources, hs] at hy
    have items : (s.reserved p h f).resource y = s.resource y := s.reserved_resource_other p h f hy
    rw [State.reserve_waiting imm hs]
    split
    · refine (State.grant_resource_other imm p h ?_).trans items
      rw [State.itemResources, State.reserved, State.slot_setSlot, if_pos ⟨rfl, rfl⟩]
      exact hy
    · exact items
  | free | assembling | done => unfold State.reserve; rw [hs]

/-! ### FAULTED resources -/

/-- A FAULTED resource stays as it is through an evaluation (R33). -/
theorem State.TableLaw.evaluateWith_faulted (law : s.TableLaw) (imm : Option (Port × Handle)) (xs : List ResNo) {k : Kind}
    (hk : s.kindOf y = some k) (hf : k.isFaulted = true) : (s.evaluateWith imm xs).kindOf y = some k := by
  refine (State.evaluateFor_keeps (fun t => t.TableLaw ∧ t.kindOf y = some k) imm (fun t p h hr ⟨law, hk⟩ => ?_) _ _ s
    ⟨law, hk⟩).2
  refine ⟨(State.reserve_proceeds imm hr).advances.law law, ?_⟩
  rw [State.kindOf, State.reserve_resource_other imm p h fun hy => ?_]
  · exact hk
  · obtain ⟨i, hi, rfl⟩ := List.mem_map.mp hy
    obtain ⟨c, hc, ho, hcr⟩ := law.items p h i hi
    rw [State.not_ready_of_faulted hk hf p h c hc ho hcr] at hr
    cases hr

theorem State.kindOf_faultResource {x : ResNo} {d : LineDef} {st : LineState} {lu : PhaseRecord}
    (hk : s.kindOf x = some (.line d st lu)) (reason : FaultReason) :
    (s.faultResource x reason).kindOf x = some (.line d (.faulted reason) { applied := none, phase := .quiet }) := by
  unfold State.faultResource
  rw [hk]
  exact State.kindOf_setLineState (s.driveIdle x) x _ d st _ (State.kindOf_order s x _ d st lu hk)
end

/-! ### Failed requests -/

section
variable {s : State} {x : ResNo}

theorem Slot.ended_of_open {v : Slot} (h : v.isOpen = true) (o : SlotOutcome) : ∃ i, v.ended o = .done i o := by
  cases v with
  | waiting f t => exact ⟨_, rfl⟩
  | assembling f pend => exact ⟨_, rfl⟩
  | free | done => cases h

/-- A request that has failed is DONE, without a claim and with its notice, whatever an evaluation does then (R48). -/
theorem State.failed_evaluate (reason : FailReason) {rs : List (Port × Handle)} {q : Port} {k : Handle} (hm : (q, k) ∈ rs)
    (ho : (s.slot q k).isOpen = true) (xs : List ResNo) :
    let u := (s.failAll rs x reason).evaluate xs
    (∃ i, u.slot q k = .done i .failed) ∧ u.NoRequest q k ∧ (s.isOpen q = true → u.HasNotice q (.failed k x reason)) := by
  intro u
  obtain ⟨i, hi⟩ := Slot.ended_of_open ho .failed
  have slot : (s.failAll rs x reason).slot q k = .done i .failed := by rw [State.failAll_slot, if_pos hm, hi]
  refine ⟨⟨i, (State.evaluateWith_slot none _ xs q k (by rw [slot]; rfl)).trans slot⟩,
    (State.failAll_noRequest x reason rs s q k hm ho).evaluateWith none _ xs, fun hq => ?_⟩
  refine (State.failAll_hasNotice x reason rs s q k hm ho hq).evaluateWith none _ xs fun k' hk' => ?_
  cases hk'
  rw [slot]; rfl

/-- A request RESERVED on a resource is among those that fail with it, and it is open (R23). -/
theorem State.TableLaw.reserved_fails (law : s.TableLaw) {c : Claim} (hc : c ∈ s.assigned x) {h : Handle}
    (hs : c.state = .reserved h) :
    (c.owner, h) ∈ s.requestsWith (Claim.reservedOn x) ∧ (s.slot c.owner h).isOpen = true := by
  obtain ⟨hm, hx, -⟩ := State.mem_assigned.mp hc
  have handle : c.state.handle = some h := by rw [hs]; rfl
  exact ⟨State.mem_requestsWith.mpr ⟨c, hm, by simp [Claim.reservedOn, hx, hs, ClaimState.isReserved], rfl, handle⟩,
    (law.backed c hm h handle).isOpen⟩

/-! ### Revoked holdings -/

theorem State.foldl_notify_hasNotice {α : Type} (f : α → Port) (g : α → Notice) {as : List α} {a : α} (ha : a ∈ as)
    (alone : ∀ b ∈ as, f b = f a → (g b).key = (g a).key → b = a) (s : State) (ho : s.isOpen (f a) = true) :
    (as.foldl (fun s a => s.notify (f a) (g a)) s).HasNotice (f a) (g a) := by
  suffices ∀ s : State, (a ∈ as ∧ s.isOpen (f a) = true) ∨ s.HasNotice (f a) (g a) →
      (as.foldl (fun s a => s.notify (f a) (g a)) s).HasNotice (f a) (g a) from this s (.inl ⟨ha, ho⟩)
  clear ha ho s
  induction as with
  | nil => exact fun s h => h.resolve_left fun e => by cases e.1
  | cons b as ih =>
    have alone' : ∀ c ∈ as, f c = f a → (g c).key = (g a).key → c = a := fun c hc => alone c (.tail _ hc)
    refine fun s h => ih alone' _ ?_
    by_cases e : f b = f a ∧ (g b).key = (g a).key
    · obtain rfl := alone b (.head _) e.1 e.2
      by_cases hs : s.isOpen (f b) = true
      · exact .inr (s.notify_hasNotice _ _ hs)
      · have stands : s.notify (f b) (g b) = s := if_neg hs
        exact .inr (State.HasNotice.congr (h.resolve_left fun h => hs h.2)
          (congrArg (fun t : State => t.queue (f b)) stands))
    · rcases h with ⟨hm, ho⟩ | hn
      · refine .inl ⟨(List.mem_cons.mp hm).resolve_left fun h => e (by rw [h]; exact ⟨rfl, rfl⟩), ?_⟩
        exact ((s.notify_tableEvent _ _).outside.isOpen _).trans ho
      · exact .inr (hn.notify _ _ fun h hk => e ⟨h, hk⟩)

/-- A revoked holding's notice is there, where its session is open (R64). -/
theorem State.OneEach.revoke_hasNotice (one : s.OneEach) (reason : RevokeReason) {sel : Claim → Bool} {c : Claim} {g : Word16}
    {ph : HoldPhase} (hc : c ∈ s.assigned x) (hs : c.state = .held g ph) (hsel : sel c = true) (ho : s.isOpen c.owner = true) :
    (s.revoke x reason sel).HasNotice c.owner (.revoked x g reason) := by
  obtain ⟨hm, hx, -⟩ := State.mem_assigned.mp hc
  have hit : c ∈ s.claims.filter fun c => c.resource == x && c.state.isHeld && sel c :=
    List.mem_filter.mpr ⟨hm, by simp [hx, hs, ClaimState.isHeld, hsel]⟩
  have noticed := State.foldl_notify_hasNotice (fun c : Claim => c.owner)
    (fun c : Claim => .revoked x (c.state.grant.getD 0) reason) hit (fun b hb hbo _ => ?_)
    (s.removeClaims fun c => c.resource == x && c.state.isHeld && sel c)
    (((State.removeClaims_tableEvent s _).outside.isOpen _).trans ho)
  · rw [hs] at noticed
    exact noticed
  · obtain ⟨hbm, hb⟩ := List.mem_filter.mp hb
    simp only [Bool.and_eq_true, beq_iff_eq] at hb
    exact one.eq hbm hm hbo (hb.1.1.trans hx.symm)

/-- A session whose claim on a resource has gone has none there, whatever follows of the claims that stand (R22). -/
theorem State.OneEach.gone (one : s.OneEach) {w u : State} (sub : ∀ c ∈ w.claims, c ∈ s.claims) (a : w.Proceeds u) {c : Claim}
    (hc : c ∈ s.claims) (hn : c ∉ w.claims) : ∀ e ∈ u.claims, ¬ (e.owner = c.owner ∧ e.resource = c.resource) := by
  rintro e he ⟨ho, hr⟩
  obtain ⟨d, hd, pass⟩ := passes_mem a.advances.claims he
  obtain rfl : d = c := one.eq (sub d hd) hc ((Claim.key_owner pass.key).symm.trans ho)
    ((Claim.key_resource pass.key).symm.trans hr)
  exact hn hd

theorem State.revoke_fewer {reason : RevokeReason} {sel : Claim → Bool} : ∀ c ∈ (s.revoke x reason sel).claims, c ∈ s.claims :=
  fun c hc => by
    rw [State.revoke_claims] at hc
    exact (List.mem_filter.mp hc).1

theorem State.revoke_held {reason : RevokeReason} {sel : Claim → Bool} {c : Claim} (hx : c.resource = x)
    (hh : c.state.isHeld = true) (hsel : sel c = true) : c ∉ (s.revoke x reason sel).claims := fun hc => by
  rw [State.revoke_claims, List.mem_filter] at hc
  simp [hx, hh, hsel] at hc
end

end Sys2Proof.Machine
end

section
/-! ## Confirmation faults -/

namespace Sys2Proof.Machine

section
variable {s : State} {x : ResNo} {d : LineDef} {lu : PhaseRecord}

/-- What a fault of a RESERVED or HELD resource leaves (R66, R89, R92, R93). -/
structure State.Faulted (s u : State) (x : ResNo) (d : LineDef) (reason : FaultReason) : Prop where
  event : s.TableEvent u
  kind : u.kindOf x = some (.line d (.faulted reason) { applied := none, phase := .quiet })

theorem State.confirmationFault_faulted (law : s.TableLaw) {st : LineState} (hk : s.kindOf x = some (.line d st lu))
    (reason : FaultReason) : s.Faulted (s.confirmationFault x reason) x d reason where
  event := ((s.faultResource_tableEvent x reason).trans (State.failAll_tableEvent _ _ x .fault)).trans
    (State.evaluate_tableEvent _ _)
  kind := by
    have law := ((s.faultResource_proceeds x reason).trans
      (State.failAll_proceeds _ x (s.requestsWith (Claim.reservedOn x)) .fault)).advances.law law
    exact law.evaluateWith_faulted none _
      (State.failAll_faulted x .fault _ _ x _ (State.kindOf_faultResource hk reason) rfl) rfl

/-- The effect of a "confirmation lost" of a HELD resource (R66). -/
def State.holdingFault (s : State) (x : ResNo) : State :=
  ((s.faultResource x .confirmLost).revoke x .confirmLost fun _ => true).evaluate [x]

theorem State.revoke_resource (s : State) (x : ResNo) (reason : RevokeReason) (sel : Claim → Bool) (y : ResNo) :
    (s.revoke x reason sel).resource y =
      (s.removeClaims fun c => c.resource == x && c.state.isHeld && sel c).resource y :=
  congrArg (fun rs : Vector (Option Resource) 64 => rs[y]) (State.foldl_notify_resources _ _ _ _)

theorem State.revoke_faulted (reason : RevokeReason) (sel : Claim → Bool) {k : Kind} (hk : s.kindOf x = some k)
    (hf : k.isFaulted = true) : (s.revoke x reason sel).kindOf x = some k := by
  obtain ⟨r, hr, rfl⟩ := State.kindOf_eq_some hk
  rw [State.kindOf, State.revoke_resource, State.removeClaims_resource]
  split
  · simp [hr, Kind.settled_faulted hf]
  · exact hk

theorem State.holdingFault_faulted (law : s.TableLaw) {st : LineState} (hk : s.kindOf x = some (.line d st lu)) :
    s.Faulted (s.holdingFault x) x d .confirmLost where
  event := ((s.faultResource_tableEvent x _).trans (State.revoke_tableEvent _ x _ _)).trans (State.evaluate_tableEvent _ _)
  kind := by
    have law := ((s.faultResource_proceeds x .confirmLost).trans
      (State.revoke_proceeds _ x (fun _ => true) .confirmLost)).advances.law law
    exact law.evaluateWith_faulted none _ (State.revoke_faulted .confirmLost _ (State.kindOf_faultResource hk _) rfl) rfl

theorem State.Faulted.endOfEvent {u : State} {reason : FaultReason} (a : (s.dropReport x).Faulted u x d reason) :
    u.endOfEvent.kindOf x = some (.line d (.faulted reason) { applied := none, phase := .quiet })
      ∧ (∀ q h, (s.slot q h).isOpen = false → u.endOfEvent.slot q h = s.slot q h) ∧ s.SameOutsideClaimTable u.endOfEvent := by
  refine ⟨?_, fun q h hq => ?_, (s.dropReport_outside x).trans a.event.ended⟩
  · rw [State.kindOf, State.endOfEvent_resource]
    exact a.kind
  · rw [State.endOfEvent_slot]
    exact (a.event.slots q h).resolve_right fun ho => by rw [show (s.slot q h).isOpen = true from ho] at hq; cases hq

/-- A request RESERVED on a resource that faults has failed (R48). -/
theorem State.TableLaw.confirmationFault_fails (law : s.TableLaw) (reason : FaultReason) {c : Claim} (hc : c ∈ s.assigned x)
    {h : Handle} (hs : c.state = .reserved h) :
    let u := s.confirmationFault x reason
    (∃ n, u.slot c.owner h = .done n .failed) ∧ u.NoRequest c.owner h
      ∧ (s.isOpen c.owner = true → u.HasNotice c.owner (.failed h x .fault)) := by
  obtain ⟨hm, ho⟩ := law.reserved_fails hc hs
  have slots := (State.faultResource_lineOrder s x reason).slots
  have failed := State.failed_evaluate (s := s.faultResource x reason) (x := x) .fault hm
    (by rw [State.slot, slots]; exact ho) (x :: s.itemsOfAll (s.requestsWith (Claim.reservedOn x)))
  rw [(s.faultResource_tableEvent x reason).outside.isOpen] at failed
  exact failed
end

/-- Settles O51: the fault stands before the removals, which leave a FAULTED resource as it is, and no evaluation undoes a
failure or a revocation. -/
theorem confirmationFaultsEndTheRequest : Obligations.ConfirmationFaultsEndTheRequest := by
  intro x d st lu s table pool hk k i reason hrep hcase
  have hl : (s.dropReport x).lineState x = some st := State.lineState_of_kindOf (s := s.dropReport x) hk
  have law : (s.dropReport x).TableLaw := (s.dropReport_proceeds x).advances.law table
  have reserved : st ≠ .held → exec i s = .next ((s.dropReport x).confirmationFault x reason).endOfEvent := fun hst => by
    rcases hcase with ⟨rfl, rfl, rfl, rfl⟩ | ⟨rfl, rfl, rfl, rfl⟩ | ⟨rfl, rfl, rfl, rfl⟩ | ⟨-, -, rfl, -⟩
    · refine (congrArg Host.Outcome.next (State.takeReport_current hrep)).trans ?_
      simp [State.onVerifyTimeout, hl]
    · refine (congrArg Host.Outcome.next (State.takeReport_current hrep)).trans ?_
      simp [State.onEngageTimeout, hl]
    · refine (congrArg Host.Outcome.next (State.takeReport_current hrep)).trans ?_
      simp [State.onConfirmationLost, hl]
    · exact absurd rfl hst
  by_cases hst : st = .held
  · subst hst
    obtain ⟨rfl, rfl, -, rfl⟩ : k = .confirmationLost ∧ i = .confirmationLost x ∧ LineState.held = .held
        ∧ reason = .confirmLost := by simpa using hcase
    have faulted := State.holdingFault_faulted (s := s.dropReport x) law hk
    obtain ⟨hkind, hslots, hout⟩ := faulted.endOfEvent
    have fault := State.faultResource_lineOrder (s.dropReport x) x .confirmLost
    have one : ((s.dropReport x).faultResource x .confirmLost).OneEach := by
      rw [State.OneEach, fault.claims]; exact pool.oneEach
    refine ⟨((s.dropReport x).holdingFault x).endOfEvent, ?_, hkind, fun c _ h hne => absurd rfl hne,
      fun c hc g ph _ hs => ⟨?_, fun ho => ?_⟩, hslots, hout⟩
    · refine (congrArg Host.Outcome.next (State.takeReport_current hrep)).trans ?_
      simp [State.onConfirmationLost, hl, State.holdingFault]
    · rw [State.endOfEvent_claims]
      obtain ⟨hm, rfl, -⟩ := State.mem_assigned.mp hc
      exact one.gone (fun _ => State.revoke_fewer _) (State.evaluate_proceeds _ _) (by rw [fault.claims]; exact hm)
        (State.revoke_held rfl (by rw [hs]; rfl) rfl)
    · refine State.HasNotice.congr ?_ (State.endOfEvent_queue _ _)
      refine (one.revoke_hasNotice .confirmLost ?_ hs rfl ?_).evaluateWith none _ [x] nofun
      · rw [State.assigned_faultResource]; exact hc
      · rw [fault.outside.isOpen]; exact ho
  · have faulted := State.confirmationFault_faulted (s := s.dropReport x) law hk reason
    obtain ⟨hkind, hslots, hout⟩ := faulted.endOfEvent
    refine ⟨_, reserved hst, hkind, fun c hc h _ hs => ?_, fun c _ g ph hheld => absurd hheld hst, hslots, hout⟩
    obtain ⟨⟨n, hdone⟩, hnone, hnotice⟩ := law.confirmationFault_fails reason (show c ∈ (s.dropReport x).assigned x from hc) hs
    refine ⟨⟨n, by rw [State.endOfEvent_slot]; exact hdone⟩, fun e he => hnone e (by simpa using he),
      fun ho => (hnotice ho).congr (State.endOfEvent_queue _ _)⟩

end Sys2Proof.Machine
end

section
/-! ## What an evaluation makes of claims, slots and resources -/

namespace Sys2Proof.Machine

/-! ### Claims that move up -/

/-- A claim through an evaluation: it stands, or it has passed to RESERVED or HELD (R36, R38, R40). -/
structure Claim.MovesUp (c' c : Claim) : Prop where
  key : c'.key = c.key
  mode : c'.mode = c.mode
  state : c'.state = c.state ∨ c'.state.isAssigned = true

/-- Every claim stands or moves up, and none is added or taken. -/
def State.MovesUp (s t : State) : Prop := ∃ g, t.claims = s.claims.map g ∧ ∀ c, Claim.MovesUp (g c) c

section
variable {s t u : State} {p : Port} {h : Handle} {x y : ResNo}

theorem Claim.MovesUp.refl (c : Claim) : Claim.MovesUp c c := ⟨rfl, rfl, .inl rfl⟩

theorem Claim.MovesUp.trans {c c' c'' : Claim} (a : Claim.MovesUp c'' c') (b : Claim.MovesUp c' c) : Claim.MovesUp c'' c where
  key := a.key.trans b.key
  mode := a.mode.trans b.mode
  state := a.state.elim (fun e => by rw [e]; exact b.state) .inr

theorem State.MovesUp.same (h : t.claims = s.claims) : s.MovesUp t := ⟨id, by simp [h], fun c => .refl c⟩

theorem State.MovesUp.trans (a : s.MovesUp u) (b : u.MovesUp t) : s.MovesUp t := by
  obtain ⟨g, hg, hg'⟩ := a
  obtain ⟨f, hf, hf'⟩ := b
  exact ⟨f ∘ g, by rw [hf, hg, List.map_map], fun c => (hf' (g c)).trans (hg' c)⟩

theorem State.MovesUp.mem (a : s.MovesUp t) {c : Claim} (hc : c ∈ s.claims) : ∃ d ∈ t.claims, Claim.MovesUp d c := by
  obtain ⟨g, hg, hg'⟩ := a
  exact ⟨g c, by rw [hg]; exact List.mem_map_of_mem hc, hg' c⟩

theorem State.grant_movesUp (imm : Option (Port × Handle)) {f : Filing} {pend : List ResNo}
    (hs : s.slot p h = .assembling f pend) : s.MovesUp (State.grant imm s p h) := by
  obtain ⟨g, hg, hc⟩ := State.foldl_grantItem_map p h (f.items.map fun i => i.resource) s
  refine ⟨g, (State.grant_claims imm hs).trans hg, fun c => ?_⟩
  rcases hc c with e | ⟨-, -, gr, ph, e⟩ <;> rw [e]
  · exact .refl c
  · exact ⟨rfl, rfl, .inr rfl⟩

theorem State.reserved_claims (s : State) (p : Port) (h : Handle) (f : Filing) :
    (s.reserved p h f).claims = s.claims.map (Claim.reservedIn p h) := (State.foldl_beginItem_lineOrder p _ _).1

theorem State.reserved_slot (s : State) (p : Port) (h : Handle) (f : Filing) :
    (s.reserved p h f).slot p h = .assembling f ((f.items.map fun i => i.resource).filter s.isLineRes) := by
  rw [State.reserved, State.slot_setSlot, if_pos ⟨rfl, rfl⟩]

theorem State.reserved_movesUp (s : State) (p : Port) (h : Handle) (f : Filing) : s.MovesUp (s.reserved p h f) := by
  refine ⟨_, s.reserved_claims p h f, fun c => ⟨Claim.reservedIn_key p h c, Claim.reservedIn_mode p h c, ?_⟩⟩
  unfold Claim.reservedIn
  split
  · exact .inr rfl
  · exact .inl rfl

theorem State.reserve_movesUp (imm : Option (Port × Handle)) (s : State) (p : Port) (h : Handle) :
    s.MovesUp (State.reserve imm s p h) := by
  cases hs : s.slot p h with
  | waiting f t =>
    rw [State.reserve_waiting imm hs]
    split
    · exact (s.reserved_movesUp p h f).trans (State.grant_movesUp imm (s.reserved_slot p h f))
    · exact s.reserved_movesUp p h f
  | free | assembling | done => unfold State.reserve; rw [hs]; exact .same rfl

theorem State.evaluateWith_movesUp (imm : Option (Port × Handle)) (s : State) (xs : List ResNo) :
    s.MovesUp (s.evaluateWith imm xs) :=
  State.evaluateFor_keeps s.MovesUp imm (fun t p h _ a => a.trans (State.reserve_movesUp imm t p h)) _ _ s (.same rfl)

/-! ### Slots that move up -/

/-- A WAITING request through an evaluation that accepts no CLAIM: it waits on, is reserved, or is granted (R36, R38, R40). -/
theorem State.evaluate_slot_of_waiting {fl : Filing} {tm : Option Time} (hs : s.slot p h = .waiting fl tm) (xs : List ResNo) :
    (s.evaluate xs).slot p h = .waiting fl tm ∨ (∃ pend, (s.evaluate xs).slot p h = .assembling fl pend)
      ∨ (s.evaluate xs).slot p h = .done fl.incarnation .granted := by
  refine State.evaluateFor_keeps (fun t => t.slot p h = .waiting fl tm ∨ (∃ pend, t.slot p h = .assembling fl pend)
    ∨ t.slot p h = .done fl.incarnation .granted) none (fun t q k hr a => ?_) _ _ s (.inl hs)
  by_cases e : q = p ∧ k = h
  · obtain ⟨rfl, rfl⟩ := e
    have waits := t.ready_waiting q k hr
    rcases a with e | ⟨pend, e⟩ | e
    · rw [State.reserve_waiting none e]
      split
      · rw [State.grant_none (t.reserved_slot q k fl)]
        exact .inr (.inr (by simp))
      · exact .inr (.inl ⟨_, t.reserved_slot q k fl⟩)
    · rw [e] at waits; cases waits
    · rw [e] at waits; cases waits
  · rwa [State.reserve_slot none t q k p h e]

/-! ### FAULTED or not -/

theorem Kind.Begun.isFaulted {k l : Kind} (a : Kind.Begun p k l) (hf : k.isFaulted = false) : l.isFaulted = false := by
  cases a with
  | token | guard | verify | engage => rfl
  | stay => exact hf

theorem Kind.granted_isFaulted (k : Kind) : k.granted.isFaulted = k.isFaulted := by
  rcases k with ⟨sh, st⟩ | ⟨d, st, lu⟩
  · rfl
  · cases st <;> rfl

/-- The resource is defined and not FAULTED. -/
def State.Sound (s : State) (x : ResNo) : Prop := ∃ k, s.kindOf x = some k ∧ k.isFaulted = false

theorem State.Sound.congr (a : s.Sound x) (h : t.resource x = s.resource x) : t.Sound x := by
  unfold State.Sound State.kindOf; rw [h]; exact a

theorem State.Sound.foldl_beginItem (a : s.Sound x) (xs : List ResNo) : (xs.foldl (fun s x => s.beginItem p x) s).Sound x := by
  obtain ⟨k, hk, hf⟩ := a
  by_cases hx : x ∈ xs
  · obtain ⟨k', hk', hb⟩ := State.foldl_beginItem_begun (p := p) xs hx hk
    exact ⟨k', hk', hb.isFaulted hf⟩
  · exact State.Sound.congr ⟨k, hk, hf⟩ ((State.foldl_beginItem_lineOrder p xs s).2.2.2 x hx)

theorem State.Sound.foldl_grantItem (a : s.Sound x) (xs : List ResNo) : (xs.foldl (fun s x => s.grantItem p h x) s).Sound x := by
  obtain ⟨k, hk, hf⟩ := a
  rw [State.Sound, State.foldl_grantItem_kindOf, hk]
  split
  · exact ⟨_, rfl, by rw [Kind.granted_isFaulted]; exact hf⟩
  · exact ⟨k, rfl, hf⟩

theorem State.Sound.grant (a : s.Sound x) (imm : Option (Port × Handle)) : (State.grant imm s p h).Sound x := by
  unfold State.grant
  split
  · next f pend hs =>
    have granted := a.foldl_grantItem (p := p) (h := h) (f.items.map fun i => i.resource)
    dsimp only
    split
    · exact granted
    · exact granted.congr (by rw [State.resource_setSlot, State.resource, State.notify_resources]; rfl)
  · exact a

theorem State.Sound.reserved (a : s.Sound x) (f : Filing) : (s.reserved p h f).Sound x :=
  State.Sound.foldl_beginItem (s := s.setClaims (s.claims.map (Claim.reservedIn p h))) a _

theorem State.Sound.evaluateWith (a : s.Sound x) (imm : Option (Port × Handle)) (xs : List ResNo) :
    (s.evaluateWith imm xs).Sound x := by
  refine State.evaluateFor_keeps (fun t => t.Sound x) imm (fun t p h hr a => ?_) _ _ s a
  cases hs : t.slot p h with
  | waiting f tm =>
    rw [State.reserve_waiting imm hs]
    split
    · exact (a.reserved f).grant imm
    · exact a.reserved f
  | free | assembling | done => unfold State.reserve; rw [hs]; exact a

/-! ### Resources that nobody claims -/

theorem State.reportsOn_order (f : LineDef → PhaseRecord → PhaseRecord) (hy : y ≠ x) :
    (s.order x f).reportsOn y = s.reportsOn y := State.reportsOn_staleReports (s.mapPhase x f) x y hy

theorem State.reportsOn_report (k : LineReportKind) (hy : y ≠ x) : (s.report x k).reportsOn y = s.reportsOn y := by
  simp [State.reportsOn, State.report, hy.symm]

theorem State.reportsOn_startEngage (hy : y ≠ x) : (s.startEngage x).reportsOn y = s.reportsOn y := by
  unfold State.startEngage
  split
  · rfl
  · exact (State.reportsOn_report _ hy).trans (State.reportsOn_order _ hy)
  · split
    · exact (State.reportsOn_report _ hy).trans (State.reportsOn_order _ hy)
    · exact State.reportsOn_order _ hy

theorem State.reportsOn_engageOrVerify (k : Port) (hy : y ≠ x) : (s.engageOrVerify x k).reportsOn y = s.reportsOn y := by
  unfold State.engageOrVerify
  split
  · exact State.reportsOn_order _ hy
  · exact (State.reportsOn_startEngage hy).trans (State.reportsOn_order _ hy)

theorem State.reportsOn_beginItem (hy : y ≠ x) : (s.beginItem p x).reportsOn y = s.reportsOn y := by
  unfold State.beginItem
  split
  · rfl
  · rfl
  · exact State.reportsOn_engageOrVerify p hy
  · rfl

theorem State.reportsOn_foldl_beginItem (xs : List ResNo) (s : State) (hy : y ∉ xs) :
    (xs.foldl (fun s x => s.beginItem p x) s).reportsOn y = s.reportsOn y := by
  induction xs generalizing s with
  | nil => rfl
  | cons x xs ih =>
    rw [List.mem_cons, not_or] at hy
    rw [List.foldl_cons, ih _ hy.2, State.reportsOn_beginItem hy.1]

theorem State.grant_lineReports (imm : Option (Port × Handle)) (s : State) (p : Port) (h : Handle) :
    (State.grant imm s p h).lineReports = s.lineReports := by
  unfold State.grant
  split
  · dsimp only
    split
    · exact State.grants_lineReports p h _ s
    · exact (State.notify_lineReports _ p _).trans (State.grants_lineReports p h _ s)
  · rfl

theorem State.reserve_reportsOn (imm : Option (Port × Handle)) (s : State) (hy : y ∉ s.itemResources p h) :
    (State.reserve imm s p h).reportsOn y = s.reportsOn y := by
  cases hs : s.slot p h with
  | waiting f t =>
    rw [State.itemResources, hs] at hy
    have items : (s.reserved p h f).reportsOn y = s.reportsOn y := State.reportsOn_foldl_beginItem _ (s.setClaims _) hy
    rw [State.reserve_waiting imm hs]
    split
    · exact (State.reportsOn_congr y (State.grant_lineReports imm _ p h)).trans items
    · exact items
  | free | assembling | done => unfold State.reserve; rw [hs]

/-- A resource that nobody claims is left as it is by an evaluation, and so are its reports (R36). -/
theorem State.TableLaw.evaluateWith_unclaimed (law : s.TableLaw) (imm : Option (Port × Handle)) (xs : List ResNo)
    (hx : ∀ c ∈ s.claims, c.resource ≠ x) : let u := s.evaluateWith imm xs
    (∀ c ∈ u.claims, c.resource ≠ x) ∧ u.resource x = s.resource x ∧ u.reportsOn x = s.reportsOn x := by
  refine (State.evaluateFor_keeps (fun t => t.TableLaw ∧ (∀ c ∈ t.claims, c.resource ≠ x) ∧ t.resource x = s.resource x
    ∧ t.reportsOn x = s.reportsOn x) imm (fun t p h hr ⟨law, hx, hres, hrep⟩ => ?_) _ _ s ⟨law, hx, rfl, rfl⟩).2
  have hy : x ∉ t.itemResources p h := fun hy => by
    obtain ⟨i, hi, rfl⟩ := List.mem_map.mp hy
    obtain ⟨c, hc, -, hcr⟩ := law.items p h i hi
    exact hx c hc hcr
  have reserve := State.reserve_proceeds imm hr
  refine ⟨reserve.advances.law law, fun c hc => ?_, ?_, ?_⟩
  · obtain ⟨d, hd, pass⟩ := passes_mem reserve.advances.claims hc
    rw [Claim.key_resource pass.key]
    exact hx d hd
  · rw [State.reserve_resource_other imm p h hy, hres]
  · rw [State.reserve_reportsOn imm t hy, hrep]
end

end Sys2Proof.Machine
end

section
/-! ## FORCE_RELEASE -/

namespace Sys2Proof.Machine

/-! ### The settling of a resource by several removals -/

section
variable {s t u : State} {p : Port} {h : Handle} {x : ResNo}

theorem Kind.settled_again (k : Kind) (a b : Bool) (now : Time) : (k.settled a now).settled b now = k.settled b now := by
  rcases k with ⟨sh, st⟩ | ⟨d, st, lu⟩
  · cases st
    case faulted => rfl
    case vacant | occupied => cases a <;> rfl
  · cases st <;> rfl

theorem Kind.settled_isFaulted (k : Kind) (b : Bool) (now : Time) : (k.settled b now).isFaulted = k.isFaulted := by
  rcases k with ⟨sh, st⟩ | ⟨d, st, lu⟩
  · cases st
    case faulted => rfl
    case vacant | occupied => cases b <;> rfl
  · cases st <;> rfl

/-- Through removals a resource stands, or it is settled (R44, R56). -/
inductive State.Unwinds (s t : State) (x : ResNo) : Prop where
  | stands (assigned : t.assigned x = s.assigned x) (resource : t.resource x = s.resource x)
      (reports : t.reportsOn x = s.reportsOn x)
  | settled (a : s.Settled t x)

theorem State.Stale.of_reportsOn (a : s.Stale x) (h : t.reportsOn x = s.reportsOn x) : t.Stale x := fun r hr hx => by
  have hm : r ∈ t.reportsOn x := List.mem_filter.mpr ⟨hr, beq_iff_eq.mpr hx⟩
  rw [h] at hm
  exact a r (List.mem_filter.mp hm).1 hx

theorem State.Settled.trans (a : s.Settled u x) (b : u.Settled t x) (hn : u.now = s.now) : s.Settled t x := by
  have kind : u.kindOf x = (s.kindOf x).map fun k => k.settled (u.assigned x).isEmpty s.now := by
    simp [State.kindOf, a.resource, Function.comp_def]
  refine ⟨?_, fun hk => ?_, fun hk => ?_⟩
  · rw [b.resource, a.resource, Option.map_map, hn]
    refine congrArg (fun f => Option.map f _) (funext fun r => ?_)
    simp [Kind.settled_again]
  · refine (b.stands ?_).trans (a.stands hk)
    rw [kind]
    cases hs : s.kindOf x with
    | none => rfl
    | some k => rw [hs] at hk; exact Kind.ends_settled hk _ _
  · cases he : (u.kindOf x).any Kind.ends with
    | true => exact b.ends he
    | false => exact (a.ends hk).of_reportsOn (b.stands he)

theorem State.Unwinds.trans (a : s.Unwinds u x) (b : u.Unwinds t x) (hn : u.now = s.now) : s.Unwinds t x := by
  cases a with
  | stands ha hr hp =>
    cases b with
    | stands ha' hr' hp' => exact .stands (ha'.trans ha) (hr'.trans hr) (hp'.trans hp)
    | settled b =>
      have hk : u.kindOf x = s.kindOf x := by simp [State.kindOf, hr]
      exact .settled ⟨by rw [b.resource, hr, hn], fun h => (b.stands (hk ▸ h)).trans hp, fun h => b.ends (hk ▸ h)⟩
  | settled a =>
    cases b with
    | stands ha' hr' hp' =>
      exact .settled ⟨by rw [hr', a.resource, ha'], fun h => hp'.trans (a.stands h), fun h => (a.ends h).of_reportsOn hp'⟩
    | settled b => exact .settled (a.trans b hn)

theorem State.removeClaims_unwinds (s : State) (sel : Claim → Bool) (x : ResNo) : s.Unwinds (s.removeClaims sel) x := by
  by_cases h : ∃ c ∈ s.assigned x, sel c = true
  · exact .settled (s.removeClaims_settled x sel h)
  · have none : ∀ c ∈ s.assigned x, sel c = false := fun c hc => by
      by_contra hs; exact h ⟨c, hc, by simpa using hs⟩
    refine .stands ?_ (State.removeClaims_resource_other s sel x none) (s.reportsOn_removeClaims x sel (.inl none))
    rw [State.assigned_removeClaims, List.filter_eq_self]
    exact fun c hc => by simp [none c hc]

theorem State.Unwinds.congr (a : s.Unwinds u x) (hc : t.claims = u.claims) (hr : t.resource x = u.resource x)
    (hl : t.lineReports = u.lineReports) (hn : u.now = s.now) : s.Unwinds t x :=
  a.trans (.stands (by simp [State.assigned, hc]) hr (State.reportsOn_congr x hl)) hn

theorem State.revoke_unwinds (s : State) (y : ResNo) (reason : RevokeReason) (sel : Claim → Bool) (x : ResNo) :
    s.Unwinds (s.revoke y reason sel) x := by
  have e := State.removeClaims_tableEvent s fun c => c.resource == y && c.state.isHeld && sel c
  refine (s.removeClaims_unwinds _ x).congr ?_ (State.revoke_resource s y reason sel x) ?_ e.outside.now
  · exact State.foldl_notify_claims _ _ _ _
  · exact State.foldl_notify_lineReports _ _ _ _

theorem State.endRequest_unwinds (s : State) (p : Port) (h : Handle) (o : SlotOutcome) (n : Notice) (x : ResNo) :
    s.Unwinds (s.endRequest p h o n) x := by
  cases ho : (s.slot p h).isOpen with
  | false => rw [State.endRequest_closed s p h o n ho]; exact .stands rfl rfl rfl
  | true =>
    rw [State.endRequest_open s p h o n ho]
    have e := State.removeClaims_tableEvent s (Claim.ofRequest p h)
    refine (s.removeClaims_unwinds _ x).congr (State.notify_claims _ p n) ?_ (State.notify_lineReports _ p n) e.outside.now
    rw [State.resource_setSlot, State.resource, State.notify_resources]
    rfl

theorem State.failAll_unwinds (rs : List (Port × Handle)) (y : ResNo) (reason : FailReason) (s : State) (x : ResNo) :
    s.Unwinds (s.failAll rs y reason) x := by
  induction rs generalizing s with
  | nil => exact .stands rfl rfl rfl
  | cons r rs ih =>
    rw [State.failAll_cons]
    exact (s.endRequest_unwinds r.1 r.2 _ _ x).trans (ih _) (State.endRequest_tableEvent s r.1 r.2 _ _).outside.now

theorem State.Unwinds.isFaulted (a : s.Unwinds t x) {k : Kind} (hk : s.kindOf x = some k) :
    ∃ k', t.kindOf x = some k' ∧ k'.isFaulted = k.isFaulted := by
  cases a with
  | stands _ hr => exact ⟨k, by rw [State.kindOf, hr]; exact hk, rfl⟩
  | settled a =>
    obtain ⟨r, hr, rfl⟩ := State.kindOf_eq_some hk
    exact ⟨_, by rw [State.kindOf, a.resource, hr]; rfl, Kind.settled_isFaulted _ _ _⟩
end

/-! ### The event -/

section
variable {s t u : State} {p : Port} {h : Handle} {x : ResNo} {f : Frame}

/-- FORCE_RELEASE before its evaluation: every holding revoked and every request reserved on the resource failed (R68). -/
def State.forceTaken (s : State) (x : ResNo) : State :=
  (s.revoke x .supervisor fun _ => true).failAll (s.requestsWith (Claim.reservedOn x)) x .supervisor

theorem State.forceReleaseEvent_eq (s : State) (x : ResNo) : s.forceReleaseEvent x =
    (s.forceTaken x).evaluate (x :: s.itemsOfAll (s.requestsWith (Claim.reservedOn x))) := rfl

theorem State.forceTaken_proceeds (s : State) (x : ResNo) : s.Proceeds (s.forceTaken x) :=
  (s.revoke_proceeds x _ _).trans (State.failAll_proceeds _ x _ _)

theorem State.forceTaken_tableEvent (s : State) (x : ResNo) : s.TableEvent (s.forceTaken x) :=
  (s.revoke_tableEvent x _ _).trans (State.failAll_tableEvent _ _ x _)

theorem State.forceTaken_fewer : ∀ c ∈ (s.forceTaken x).claims, c ∈ s.claims := fun c hc =>
  State.revoke_fewer c ((State.failAll_claims_sublist x _ _ _).subset hc)

theorem State.forceTaken_unwinds (s : State) (x : ResNo) : s.Unwinds (s.forceTaken x) x :=
  (s.revoke_unwinds x _ _ x).trans (State.failAll_unwinds _ x _ _ x) (s.revoke_tableEvent x _ _).outside.now

/-- No claim that was assigned on the resource is left (R68). -/
theorem State.TableLaw.forceTaken_gone (law : s.TableLaw) {c : Claim} (hc : c ∈ s.assigned x) :
    c ∉ (s.forceTaken x).claims := by
  intro hm
  obtain ⟨hcm, hx, ha⟩ := State.mem_assigned.mp hc
  cases hs : c.state with
  | waiting k => rw [hs] at ha; cases ha
  | held g ph =>
    exact State.revoke_held hx (by rw [hs]; rfl) rfl ((State.failAll_claims_sublist x _ _ _).subset hm)
  | reserved k =>
    obtain ⟨hr, ho⟩ := law.reserved_fails hc hs
    have none := State.failAll_noRequest x .supervisor _ (s.revoke x .supervisor fun _ => true) c.owner k hr
      (by rw [State.slot, State.revoke_slots]; exact ho) c hm
    rw [Claim.ofRequest_iff.mpr ⟨rfl, by rw [hs]; rfl⟩] at none
    cases none

theorem State.failAll_stays {rs : List (Port × Handle)} (reason : FailReason) {c : Claim} (hc : c ∈ s.claims)
    (h : ∀ r ∈ rs, Claim.ofRequest r.1 r.2 c = false) : c ∈ (s.failAll rs x reason).claims := by
  induction rs generalizing s with
  | nil => exact hc
  | cons r rs ih =>
    rw [State.failAll_cons]
    refine ih ?_ fun r' hr => h r' (.tail _ hr)
    rw [State.failRequest, State.endRequest_claims]
    split
    · exact List.mem_filter.mpr ⟨hc, by simp [h r (.head _)]⟩
    · exact hc

/-- A request that waits has no claim reserved on the resource (R23). -/
theorem State.TableLaw.waiting_not_reserved (law : s.TableLaw) {q : Port} {k : Handle} {fl : Filing} {tm : Option Time}
    (hs : s.slot q k = .waiting fl tm) : (q, k) ∉ s.requestsWith (Claim.reservedOn x) := by
  intro hm
  obtain ⟨c, hc, hr, rfl, hk⟩ := State.mem_requestsWith.mp hm
  have backs := law.backed c hc k hk
  rw [hs] at backs
  simp only [Claim.reservedOn, Bool.and_eq_true] at hr
  have waits : c.state.isWaiting = true := backs.1
  cases hcs : c.state <;> rw [hcs] at waits hr <;> simp [ClaimState.isWaiting, ClaimState.isReserved] at waits hr

/-- The claims waiting for the resource are not removed (R68). -/
theorem State.TableLaw.forceTaken_waits (law : s.TableLaw) {c : Claim} (hc : c ∈ s.waitQueue x) :
    c ∈ (s.forceTaken x).claims := by
  obtain ⟨hm, hx, hw⟩ := State.mem_waitQueue.mp hc
  refine State.failAll_stays .supervisor ?_ fun r hr => ?_
  · rw [State.revoke_claims, List.mem_filter]
    refine ⟨hm, ?_⟩
    cases hs : c.state <;> rw [hs] at hw <;> simp [ClaimState.isWaiting, ClaimState.isHeld] at hw ⊢
  · by_contra ho
    obtain ⟨hp, hk⟩ := Claim.ofRequest_iff.mp (Bool.eq_true_of_not_eq_false ho)
    have backs := law.backed c hm r.2 hk
    rw [hp] at backs
    cases hs : s.slot r.1 r.2 with
    | waiting fl tm => exact law.waiting_not_reserved hs hr
    | free | done => rw [hs] at backs; exact backs
    | assembling fl pend =>
      rw [hs] at backs
      have hr : c.state.isReserved = true := backs.1
      cases hcs : c.state <;> rw [hcs] at hw hr <;> simp [ClaimState.isWaiting, ClaimState.isReserved] at hw hr

theorem State.TableLaw.forceTaken_slot (law : s.TableLaw) {q : Port} {k : Handle} {fl : Filing} {tm : Option Time}
    (hs : s.slot q k = .waiting fl tm) : (s.forceTaken x).slot q k = .waiting fl tm := by
  rw [State.forceTaken, State.failAll_slot, if_neg (law.waiting_not_reserved hs), State.slot, State.revoke_slots]
  exact hs

/-- A FAULTED resource stays FAULTED, and no other becomes so (R68). -/
theorem State.TableLaw.forceReleaseEvent_isFaulted (law : s.TableLaw) {r : Resource} (hr : s.resource x = some r) :
    ∃ k, (s.forceReleaseEvent x).kindOf x = some k ∧ k.isFaulted = r.kind.isFaulted := by
  obtain ⟨k, hk, hf⟩ := (s.forceTaken_unwinds x).isFaulted (show s.kindOf x = some r.kind by simp [State.kindOf, hr])
  rw [State.forceReleaseEvent_eq]
  cases hb : k.isFaulted with
  | true =>
    have law := (s.forceTaken_proceeds x).advances.law law
    exact ⟨k, law.evaluateWith_faulted none _ hk hb, hf⟩
  | false =>
    obtain ⟨k', hk', hf'⟩ := State.Sound.evaluateWith ⟨k, hk, hb⟩ none
      (x :: s.itemsOfAll (s.requestsWith (Claim.reservedOn x)))
    exact ⟨k', hk', by rw [hf', ← hf, hb]⟩

theorem State.waits_or_assigned {c : Claim} (hc : c ∈ s.claims) : c ∈ s.waitQueue c.resource ∨ c ∈ s.assigned c.resource := by
  rw [State.mem_waitQueue, State.mem_assigned]
  cases hs : c.state with
  | waiting => exact .inl ⟨hc, rfl, rfl⟩
  | reserved | held => exact .inr ⟨hc, rfl, rfl⟩

/-- Where nobody waits for the resource, nobody claims it once its holdings and reservations have gone (R68). -/
theorem State.TableLaw.forceTaken_unclaimed (law : s.TableLaw) (hw : s.waitQueue x = []) :
    ∀ c ∈ (s.forceTaken x).claims, c.resource ≠ x := fun c hc hx => by
  have hm := State.forceTaken_fewer c hc
  rcases State.waits_or_assigned hm with hm | hm
  · rw [hx, hw] at hm; cases hm
  · exact law.forceTaken_gone (hx ▸ hm) hc

/-- R44, R56: where nobody waits for a resource that somebody has, it is left unwound. -/
theorem State.TableLaw.forceReleaseEvent_unwound (law : s.TableLaw) {r : Resource} (hr : s.resource x = some r)
    (hw : s.waitQueue x = []) (ha : s.assigned x ≠ []) : s.ResourceUnwound (s.forceReleaseEvent x) x r := by
  have unclaimed := law.forceTaken_unclaimed hw
  obtain ⟨hclaims, hres, hrep⟩ := ((s.forceTaken_proceeds x).advances.law law).evaluateWith_unclaimed none
    (x :: s.itemsOfAll (s.requestsWith (Claim.reservedOn x))) unclaimed
  have empty : ∀ t : State, (∀ c ∈ t.claims, c.resource ≠ x) → t.assigned x = [] := fun t ht =>
    List.filter_eq_nil_iff.mpr fun c hc => by simp [ht c hc]
  have evaluated : (s.forceTaken x).Unwinds (s.forceReleaseEvent x) x :=
    .stands ((empty _ hclaims).trans (empty _ unclaimed).symm) hres hrep
  cases (s.forceTaken_unwinds x).trans evaluated (s.forceTaken_tableEvent x).outside.now with
  | stands same => exact absurd (same.symm.trans (empty _ hclaims)) ha
  | settled a => exact a.unwound hr

theorem State.revoke_none {reason : RevokeReason} {sel : Claim → Bool}
    (h : ∀ c ∈ s.assigned x, c.state.isHeld = true → sel c = false) : s.revoke x reason sel = s := by
  have hit : ∀ c ∈ s.claims, (c.resource == x && c.state.isHeld && sel c) = false := fun c hc => by
    by_contra hh
    simp only [Bool.not_eq_false, Bool.and_eq_true, beq_iff_eq] at hh
    have := h c (State.mem_assigned.mpr ⟨hc, hh.1.1, ClaimState.isAssigned_of_isHeld hh.1.2⟩) hh.1.2
    rw [hh.2] at this; cases this
  have none : (s.claims.filter fun c => c.resource == x && c.state.isHeld && sel c) = [] :=
    List.filter_eq_nil_iff.mpr fun c hc => by simp [hit c hc]
  have all : (s.claims.filter fun c => !(c.resource == x && c.state.isHeld && sel c)) = s.claims :=
    List.filter_eq_self.mpr fun c hc => by simp [hit c hc]
  have gone : (s.claims.filter fun c => (c.resource == x && c.state.isHeld && sel c) && c.state.isAssigned) = [] :=
    List.filter_eq_nil_iff.mpr fun c hc => by simp [hit c hc]
  unfold State.revoke State.removeClaims
  dsimp only
  rw [none, all, gone]
  rfl

/-- A resource that nobody claims is not touched (R68). -/
theorem State.forceReleaseEvent_unclaimed (hw : s.waitQueue x = []) (ha : s.assigned x = []) : s.forceReleaseEvent x = s := by
  have none : s.requestsWith (Claim.reservedOn x) = [] := List.eq_nil_iff_forall_not_mem.mpr fun ⟨q, k⟩ hm => by
    obtain ⟨c, hc, hr, -, -⟩ := State.mem_requestsWith.mp hm
    simp only [Claim.reservedOn, Bool.and_eq_true, beq_iff_eq] at hr
    have hm : c ∈ s.assigned x := State.mem_assigned.mpr ⟨hc, hr.1, ClaimState.isAssigned_of_isReserved hr.2⟩
    rw [ha] at hm; cases hm
  have taken : s.forceTaken x = s := by
    rw [State.forceTaken, none, State.revoke_none fun c hc _ => by rw [ha] at hc; cases hc]
    rfl
  rw [State.forceReleaseEvent_eq, taken, none]
  exact State.evaluate_nothing_waits s [x] fun y hy => by rw [List.mem_singleton.mp hy, hw]

/-- R68: the sessions of the revoked holdings and failed reservations have no claim on the resource. -/
theorem State.TableLaw.forceReleaseEvent_gone (law : s.TableLaw) (one : s.OneEach) {c : Claim} (hc : c ∈ s.assigned x) :
    ∀ d ∈ (s.forceReleaseEvent x).claims, ¬ (d.owner = c.owner ∧ d.resource = x) := by
  have gone := law.forceTaken_gone hc
  obtain ⟨hm, rfl, -⟩ := State.mem_assigned.mp hc
  exact one.gone (fun _ => State.forceTaken_fewer _) (State.evaluate_proceeds _ _) hm gone

theorem State.OneEach.forceReleaseEvent_revoked (one : s.OneEach) {c : Claim} (hc : c ∈ s.assigned x) {g : Word16}
    {ph : HoldPhase} (hs : c.state = .held g ph) (ho : s.isOpen c.owner = true) :
    (s.forceReleaseEvent x).HasNotice c.owner (.revoked x g .supervisor) := by
  have revoked := one.revoke_hasNotice .supervisor (sel := fun _ => true) hc hs rfl ho
  exact (revoked.failAll x .supervisor (s.requestsWith (Claim.reservedOn x)) fun r _ _ => nofun).evaluateWith none _ _ nofun

theorem State.TableLaw.forceReleaseEvent_failed (law : s.TableLaw) {c : Claim} (hc : c ∈ s.assigned x)
    (hs : c.state = .reserved h) : let u := s.forceReleaseEvent x
    (∃ i, u.slot c.owner h = .done i .failed) ∧ u.NoRequest c.owner h
      ∧ (s.isOpen c.owner = true → u.HasNotice c.owner (.failed h x .supervisor)) := by
  obtain ⟨hm, ho⟩ := law.reserved_fails hc hs
  have failed := State.failed_evaluate (s := s.revoke x .supervisor fun _ => true) (x := x) .supervisor hm
    (by rw [State.slot, State.revoke_slots]; exact ho) (x :: s.itemsOfAll (s.requestsWith (Claim.reservedOn x)))
  rw [(s.revoke_tableEvent x _ _).outside.isOpen] at failed
  exact failed

theorem State.TableLaw.forceReleaseEvent_waits (law : s.TableLaw) {c : Claim} (hc : c ∈ s.waitQueue x) :
    ∃ d ∈ (s.forceReleaseEvent x).claims, d.owner = c.owner ∧ d.resource = x ∧ d.mode = c.mode
      ∧ (d.state = c.state ∨ d.state.isAssigned = true) := by
  obtain ⟨d, hd, up⟩ := (State.evaluateWith_movesUp none (s.forceTaken x)
    (x :: s.itemsOfAll (s.requestsWith (Claim.reservedOn x)))).mem (law.forceTaken_waits hc)
  exact ⟨d, hd, Claim.key_owner up.key, (Claim.key_resource up.key).trans (State.mem_waitQueue.mp hc).2.1, up.mode, up.state⟩

/-- The checks of a FORCE_RELEASE after its session and permission checks (R68). -/
theorem State.OpenFor.forceRelease_verdict (ho : s.OpenFor p f) (hp : p = s.supervisor) :
    forceReleaseVerdict p f (s.taking .forceRelease p f) = .checked (s.resourceChecks (f.byte 0))
      (.executed .ok [] ((s.taking .forceRelease p f).forceReleaseEvent (resOf (f.byte 0)))) := by
  have hc := State.supervisorChecks_open (ho.taking (k := .forceRelease)) (by simpa using hp)
  rw [forceReleaseVerdict, Verdict.checked_append hc]
  simp [State.resourceChecks]

theorem State.Offered.forceRelease_checks (h : s.Offered .forceRelease p f) (ho : s.OpenFor p f) (hp : p = s.supervisor) :
    s.ChecksTheResource .forceRelease p f := by
  have verdict := ho.forceRelease_verdict hp
  simp only [State.resourceChecks, Verdict.checked_cons, Verdict.checked_nil, decide_eq_true_eq] at verdict
  refine ⟨fun hbig => h.refused (verdict.trans (if_pos hbig)) nofun, fun x hx hnone => h.refused (verdict.trans ?_) nofun⟩
  rw [resOf_eq hx, hnone, if_neg (by omega)]; rfl

theorem State.Offered.forceRelease_executed (hof : s.Offered .forceRelease p f) (ho : s.OpenFor p f) (hp : p = s.supervisor)
    (hx : (f.byte 0).toNat = x.val) (hd : (s.resource x).isSome = true) :
    let u := ((s.taking .forceRelease p f).forceReleaseEvent x).endOfEvent.place p f .ok [] true
    exec (.forceRelease p) s = .next u ∧ s.Answered u p f .ok [] := by
  have verdict := ho.forceRelease_verdict hp
  have inRange : ¬ 63 < (f.byte 0).toNat := by omega
  have defined : ¬ (s.resource x).isNone = true := by simpa using Option.isSome_iff_ne_none.mp hd
  simp only [State.resourceChecks, resOf_eq hx, Verdict.checked_cons, Verdict.checked_nil, decide_eq_true_eq, inRange,
    defined, if_false] at verdict
  obtain ⟨hexec, hans, -⟩ := hof.executed verdict
  exact ⟨hexec, hans⟩
end

/-- Settles O38: holdings and reservations go before the evaluation, which finds the claims that waited as they were. -/
theorem forceReleaseTakesTheResourceBack : Obligations.ForceReleaseTakesTheResourceBack := by
  refine ⟨fun p f s hof ho hp => hof.forceRelease_checks ho hp, fun p x f r s hof ho hp hx hr pool law => ?_⟩
  obtain ⟨hexec, hans⟩ := hof.forceRelease_executed ho hp hx (by rw [hr]; rfl)
  have law : (s.taking .forceRelease p f).TableLaw := (s.taking_sameTable .forceRelease p f).tableLaw law
  have one : (s.taking .forceRelease p f).OneEach := by rw [State.OneEach, State.taking_claims]; exact pool.oneEach
  have hr : (s.taking .forceRelease p f).resource x = some r := by simpa using hr
  have event := State.forceReleaseEvent_tableEvent (s.taking .forceRelease p f) x
  obtain ⟨hsup, hin, hev, hother⟩ := event.outside.served .ok []
  refine ⟨_, hexec, hans, fun c hc d hd => ?_, fun c hc g ph hs hq => ?_, fun c hc h hs => ?_, fun c hc => ?_, ?_,
    fun q k fl tm hs => ?_, fun q k hq => ?_, ?_, fun hw ha => ?_, fun hw ha => ?_, hsup, hin, hev, hother⟩
  · rw [State.place_claims, State.endOfEvent_claims] at hd
    exact law.forceReleaseEvent_gone one (by simpa using hc) d hd
  · refine (one.forceReleaseEvent_revoked (by simpa using hc) hs (by simpa using hq)).congr ?_
    rw [State.queue_place, State.endOfEvent_queue]
  · obtain ⟨hdone, hnone, hnotice⟩ := law.forceReleaseEvent_failed (by simpa using hc) hs
    refine ⟨by simpa using hdone, fun d hd => hnone d (by simpa using hd), fun hq => ?_⟩
    refine (hnotice (by simpa using hq)).congr ?_
    rw [State.queue_place, State.endOfEvent_queue]
  · rw [State.place_claims, State.endOfEvent_claims]
    exact law.forceReleaseEvent_waits (by simpa using hc)
  · have sub := passes_waiting ((s.taking .forceRelease p f).forceReleaseEvent_proceeds x).advances.claims x
    rw [State.taking_claims] at sub
    rw [State.waitQueue, State.place_claims, State.endOfEvent_claims]
    exact sub
  · rw [State.slot_place, State.endOfEvent_slot, State.forceReleaseEvent_eq]
    exact State.evaluate_slot_of_waiting (law.forceTaken_slot (by simpa using hs)) _
  · rw [State.slot_place, State.endOfEvent_slot]
    have slots := event.slots q k
    rw [State.taking_slot] at slots
    exact slots.resolve_right fun ho => by rw [ho] at hq; cases hq
  · rw [State.kindOf_place, State.kindOf, State.endOfEvent_resource]
    exact law.forceReleaseEvent_isFaulted hr
  · refine (law.forceReleaseEvent_unwound hr (by simpa using hw) (by simpa using ha)).congr (by simp) (by simp) ?_ ?_ ?_
    · rw [State.place_claims, State.endOfEvent_claims]
    · rw [State.resource_place, State.endOfEvent_resource]
    · rw [State.place_lineReports, State.endOfEvent_lineReports]
  · rw [State.forceReleaseEvent_unclaimed (by simpa using hw) (by simpa using ha)]

end Sys2Proof.Machine
end

section
/-! ## The reservation of one request, field by field -/

namespace Sys2Proof.Machine

section
variable {s t : State} {p : Port} {h : Handle} {x y : ResNo} {f : Filing}

/-! ### The handover of an item -/

/-- The kind part of a resource whose handover for port `p` begins now (R38, R84, R85). -/
def State.begunKind (s : State) (p : Port) : Kind → Kind
  | .token sh _ => .token sh .occupied
  | .line d .cooling lu => .line d .guard lu
  | .line d .vacant lu =>
    match d.confirm with
    | none => .line d .engage { applied := some p, phase := .quiet }
    | some b =>
      if s.engagedLevel b = true then .line d .verify { lu with phase := .verify (s.now + b.timeout.toNat * 100) }
      else .line d .engage { applied := some p, phase := .engage (s.now + b.timeout.toNat * 100) }
  | k => k

theorem State.begunKind_congr (hn : t.now = s.now) (hc : t.confirmInputs = s.confirmInputs) (p : Port) (k : Kind) :
    t.begunKind p k = s.begunKind p k := by
  have level : ∀ b, t.engagedLevel b = s.engagedLevel b := fun b => by simp [State.engagedLevel, hc]
  unfold State.begunKind
  simp only [level, hn]

theorem State.lineDef_of_kindOf {d : LineDef} {st : LineState} {lu : PhaseRecord} (hk : s.kindOf x = some (.line d st lu)) :
    s.lineDef x = some d := by
  obtain ⟨r, hr, hrk⟩ := State.kindOf_eq_some hk
  simp [State.lineDef, hr, hrk, Kind.lineDef]

theorem State.kindOf_engageOrVerify_vacant {d : LineDef} {lu : PhaseRecord} (hk : s.kindOf x = some (.line d .vacant lu)) :
    (s.engageOrVerify x p).kindOf x = some (s.begunKind p (.line d .vacant lu)) := by
  have hd := State.lineDef_of_kindOf hk
  have driven : (s.drivePattern x p).kindOf x = some (.line d .vacant { lu with applied := some p }) :=
    State.kindOf_order s x _ d _ lu hk
  obtain ⟨-, engaging, quiet⟩ := (s.drivePattern x p).startEngage_spec x d .vacant _ driven
  cases hc : d.confirm with
  | none =>
    have e : s.engageOrVerify x p = ((s.drivePattern x p).startEngage x).setLineState x .engage := by
      simp [State.engageOrVerify, hd, hc]
    rw [e, State.kindOf_setLineState _ x .engage d _ _ (quiet hc).1]
    simp [State.begunKind, hc]
  | some b =>
    cases hl : s.engagedLevel b with
    | true =>
      have e : s.engageOrVerify x p = (s.startVerify x).setLineState x .verify := by simp [State.engageOrVerify, hd, hc, hl]
      have verifying : (s.startVerify x).kindOf x = some (.line d .vacant { lu with phase := .verify (s.confirmEnds d) }) :=
        State.kindOf_order s x _ d _ lu hk
      rw [e, State.kindOf_setLineState _ x .verify d _ _ verifying]
      simp [State.begunKind, hc, hl, State.confirmEnds, msUnits, Config.unitsPerMs]
    | false =>
      have e : s.engageOrVerify x p = ((s.drivePattern x p).startEngage x).setLineState x .engage := by
        simp [State.engageOrVerify, hd, hc, hl]
      rw [e, State.kindOf_setLineState _ x .engage d _ _ (engaging b hc hl)]
      simp [State.begunKind, hc, hl]
      rfl

theorem State.kindOf_beginItem {k : Kind} (hk : s.kindOf x = some k) :
    (s.beginItem p x).kindOf x = some (s.begunKind p k) := by
  rcases k with ⟨sh, st⟩ | ⟨d, st, lu⟩
  · have e : s.beginItem p x = s.setKind x (.token sh .occupied) := by simp [State.beginItem, hk]
    rw [e, State.kindOf_setKind s x _ _ hk]
    rfl
  · cases st with
    | cooling =>
      have e : s.beginItem p x = s.setLineState x .guard := by simp [State.beginItem, hk]
      rw [e, State.kindOf_setLineState s x _ d _ lu hk]
      rfl
    | vacant =>
      have e : s.beginItem p x = s.engageOrVerify x p := by simp [State.beginItem, hk]
      rw [e, State.kindOf_engageOrVerify_vacant hk]
    | guard | verify | engage | held | faulted =>
      have e : s.beginItem p x = s := by simp [State.beginItem, hk]
      rw [e, hk]
      rfl

theorem State.LineOrder.resource {r : Resource} {k : Kind} (o : State.LineOrder x s t) (hr : s.resource x = some r)
    (hk : t.kindOf x = some k) : t.resource x = some { r with kind := k } := by
  obtain ⟨r', hr', rfl⟩ := State.kindOf_eq_some hk
  have grantNumber := o.grantNumber
  have holdLimit := o.holdLimit
  have yieldGrace := o.yieldGrace
  have label := o.label
  rw [hr, hr'] at grantNumber holdLimit yieldGrace label
  rw [hr']
  cases r'
  simp_all

theorem State.beginItem_resource (s : State) (p : Port) (x : ResNo) : (s.beginItem p x).resource x =
    (s.resource x).map fun r => { r with kind := s.begunKind p r.kind } := by
  cases hr : s.resource x with
  | none => simpa [hr] using (s.beginItem_lineOrder x p).isSome x
  | some r =>
    exact (s.beginItem_lineOrder x p).resource hr (State.kindOf_beginItem (by simp [State.kindOf, hr]))

/-- The resources after the handovers of distinct items have begun (R38, R84, R85). -/
theorem State.foldl_beginItem_resource (xs : List ResNo) (hn : xs.Nodup) (s : State) (y : ResNo) :
    (xs.foldl (fun s x => s.beginItem p x) s).resource y =
      if y ∈ xs then (s.resource y).map fun r => { r with kind := s.begunKind p r.kind } else s.resource y := by
  induction xs generalizing s with
  | nil => rfl
  | cons x xs ih =>
    rw [List.nodup_cons] at hn
    have o := s.beginItem_lineOrder x p
    rw [List.foldl_cons, ih hn.2]
    by_cases e : y = x
    · subst e
      rw [if_neg hn.1, if_pos (List.mem_cons_self), State.beginItem_resource]
    · simp only [o.others y e, State.begunKind_congr o.outside.now o.outside.confirmInputs, List.mem_cons, e, false_or]

/-! ### The reservation of a request -/

theorem State.reserved_outside (s : State) (p : Port) (h : Handle) (f : Filing) : s.SameOutsideClaimTable (s.reserved p h f) :=
  (State.SameOutsideClaimTable.trans (t := s.setClaims (s.claims.map (Claim.reservedIn p h))) (by constructor <;> rfl)
    (State.foldl_beginItem_lineOrder p _ _).2.2.1).trans (by constructor <;> rfl)

theorem State.reserved_slot_eq (s : State) (p : Port) (h : Handle) (f : Filing) (q : Port) (k : Handle) :
    (s.reserved p h f).slot q k =
      if p = q ∧ h = k then .assembling f ((f.items.map fun i => i.resource).filter s.isLineRes) else s.slot q k := by
  rw [State.reserved, State.slot_setSlot]
  simp [State.slot, State.foldl_beginItem_slots]

theorem State.reserved_queues (s : State) (p : Port) (h : Handle) (f : Filing) : (s.reserved p h f).queues = s.queues :=
  (State.foldl_beginItem_lineOrder p _ _).2.1

theorem State.reserved_resource (hn : (f.items.map fun i => i.resource).Nodup) (y : ResNo) :
    (s.reserved p h f).resource y = if y ∈ f.items.map (fun i => i.resource) then
      (s.resource y).map fun r => { r with kind := s.begunKind p r.kind } else s.resource y :=
  State.foldl_beginItem_resource _ hn (s.setClaims (s.claims.map (Claim.reservedIn p h))) y

/-- A claim that still waits after the reservation of a request is of another request and stood before (R38, R40). -/
theorem State.reserve_waits (imm : Option (Port × Handle)) {tm : Option Time} (hs : s.slot p h = .waiting f tm) {c : Claim}
    (hc : c ∈ (State.reserve imm s p h).claims) (hw : c.state.isWaiting = true) :
    c ∈ s.claims ∧ Claim.ofRequest p h c = false := by
  have reserved : ∀ c ∈ (s.reserved p h f).claims, c.state.isWaiting = true →
      c ∈ s.claims ∧ Claim.ofRequest p h c = false := fun c hc hw => by
    rw [State.reserved_claims] at hc
    obtain ⟨d, hd, rfl⟩ := List.mem_map.mp hc
    by_cases ho : Claim.ofRequest p h d = true
    · rw [Claim.reservedIn_own ho] at hw; cases hw
    · rw [Claim.reservedIn_other ho]
      exact ⟨hd, Bool.eq_false_of_not_eq_true ho⟩
  rw [State.reserve_waiting imm hs] at hc
  split at hc
  · rw [State.grant_claims imm (s.reserved_slot p h f)] at hc
    obtain ⟨g, hg, hg'⟩ := State.foldl_grantItem_map p h (f.items.map fun i => i.resource) (s.reserved p h f)
    rw [hg] at hc
    obtain ⟨d, hd, rfl⟩ := List.mem_map.mp hc
    rcases hg' d with e | ⟨-, -, gr, ph, e⟩
    · rw [e] at hw ⊢; exact reserved d hd hw
    · rw [e] at hw; cases hw
  · exact reserved c hc hw

/-- Where one request, and no other, waits for the pending resources and is ready, evaluation reserves it and is done (R36). -/
theorem State.evaluateWith_one (imm : Option (Port × Handle)) {xs : List ResNo} {tm : Option Time}
    (hs : s.slot p h = .waiting f tm) (hr : s.ready p h = true) (hxs : xs ≠ []) (hi : ∀ i ∈ f.items, i.resource ∈ xs)
    (hq : ∀ y ∈ xs, ∃ c, s.waitQueue y = [c] ∧ Claim.ofRequest p h c = true) :
    s.evaluateWith imm xs = State.reserve imm s p h := by
  have head : ∀ y ∈ xs, s.headRequest y = some (p, h) := fun y hy => by
    obtain ⟨c, hc, ho⟩ := hq y hy
    obtain ⟨e1, e2⟩ := Claim.ofRequest_iff.mp ho
    simp [State.headRequest, State.headClaim, hc, e1, e2]
  have idle : ∀ n ys, (∀ y ∈ ys, y ∈ xs) → State.evaluateFor imm n ys (State.reserve imm s p h) = State.reserve imm s p h := by
    refine fun n ys hys => State.evaluateFor_idle imm n ys _ fun y hy q k e => ?_
    obtain ⟨d, -, -, -, hd, hdy, hw⟩ := State.headRequest_claim e
    obtain ⟨hm, ho⟩ := State.reserve_waits imm hs hd hw
    obtain ⟨c, hc, hoc⟩ := hq y (hys y hy)
    have : d ∈ s.waitQueue y := State.mem_waitQueue.mpr ⟨hm, hdy, hw⟩
    rw [hc, List.mem_singleton] at this
    rw [this, hoc] at ho; cases ho
  rw [State.evaluateWith, show s.cascadeBound = 64 * (s.claims.length + 1) + 1 from rfl]
  have pending : ∀ y ∈ placeAll xs [], y ∈ xs := fun y hy => by simpa [placeAll_mem] using hy
  cases hp : placeAll xs [] with
  | nil =>
    obtain ⟨y, hy⟩ := List.exists_mem_of_ne_nil xs hxs
    have : y ∈ placeAll xs [] := (placeAll_mem xs [] y).mpr (.inl hy)
    rw [hp] at this; cases this
  | cons y ys =>
    rw [hp] at pending
    rw [State.evaluateFor, head y (pending y (.head _))]
    simp only [hr, if_true]
    refine idle _ _ fun z hz => ?_
    rcases (placeAll_mem _ _ z).mp hz with hz | hz
    · rw [State.itemResources, hs] at hz
      obtain ⟨i, hi', rfl⟩ := List.mem_map.mp hz
      exact hi i hi'
    · exact pending z (.tail _ hz)

/-- A TOKEN request is granted with its reservation (R38 to R40). -/
theorem State.reserve_tokens (imm : Option (Port × Handle)) {tm : Option Time} (hs : s.slot p h = .waiting f tm)
    (ht : ∀ i ∈ f.items, s.isLineRes i.resource = false) :
    State.reserve imm s p h = State.grant imm (s.reserved p h f) p h := by
  rw [State.reserve_waiting imm hs, if_pos]
  rw [List.isEmpty_iff, List.filter_eq_nil_iff]
  intro y hy
  obtain ⟨i, hi, rfl⟩ := List.mem_map.mp hy
  simp [ht i hi]

theorem State.isLineRes_token {sh : Bool} {st : TokenState} (hk : s.kindOf x = some (.token sh st)) : s.isLineRes x = false := by
  simp [State.isLineRes, hk, Kind.isLine]

theorem State.isOpen_of_isLive (h : s.isLive p = true) : s.isOpen p = true := by
  revert h
  unfold State.isLive State.isOpen
  cases (s.session p).state <;> simp [SessionState.isLive, SessionState.isOpen]

theorem State.clear_isOpen {c : Claim} (h : s.clear c = true) : s.isOpen c.owner = true := by
  unfold State.clear at h
  simp only [Bool.and_eq_true] at h
  obtain ⟨⟨-, live⟩, -⟩ := h
  exact State.isOpen_of_isLive live

/-- The grant of a reserved request (R8, R40). -/
theorem State.granted_reserved (hn : (f.items.map fun i => i.resource).Nodup) (c : Claim) :
    (s.reserved p h f).granted { c with state := .reserved h } = s.granted c := by
  have o := s.reserved_outside p h f
  have res := State.reserved_resource (s := s) (p := p) (h := h) hn c.resource
  have number : (s.reserved p h f).grantOf c.resource = s.grantOf c.resource := by
    rw [State.grantOf, State.grantOf, res]
    split
    · rw [Option.map_map]; rfl
    · rfl
  have hold : (s.reserved p h f).holdAt c.resource = s.holdAt c.resource := by
    rw [State.holdAt, State.holdAt, res]
    split
    · rw [Option.map_map, State.holdStart, State.holdStart, o.now]; rfl
    · rw [State.holdStart, State.holdStart, o.now]
  simp only [State.granted, number, hold]

theorem State.grantedClaims_reserved (hn : (f.items.map fun i => i.resource).Nodup)
    (hi : ∀ c ∈ s.claims, Claim.ofRequest p h c = true → c.resource ∈ f.items.map fun i => i.resource) :
    (s.reserved p h f).grantedClaims p h (f.items.map fun i => i.resource) =
      s.claims.map fun c => if Claim.ofRequest p h c = true then s.granted c else c := by
  rw [State.grantedClaims, State.reserved_claims, List.map_map]
  refine List.map_congr_left fun c hc => ?_
  rw [Function.comp_apply]
  by_cases ho : Claim.ofRequest p h c = true
  · have own : Claim.ofRequest p h { c with state := .reserved h } = true :=
      Claim.ofRequest_iff.mpr ⟨(Claim.ofRequest_iff.mp ho).1, rfl⟩
    rw [Claim.reservedIn_own ho, if_pos ⟨own, rfl, hi c hc ho⟩, if_pos ho, State.granted_reserved hn]
  · rw [Claim.reservedIn_other ho, if_neg fun e => ho e.1, if_neg ho]

/-! ### The grant of a request for TOKEN resources -/

theorem State.isLineRes_eq (s : State) (x : ResNo) : s.isLineRes x = (s.lineDef x).isSome := by
  unfold State.isLineRes State.lineDef State.kindOf
  cases s.resource x with
  | none => rfl
  | some r =>
    rw [Option.map_some, Option.bind_some]
    cases r.kind <;> rfl

theorem State.LineOrder.isLineRes (o : State.LineOrder x s t) (y : ResNo) : t.isLineRes y = s.isLineRes y := by
  rw [State.isLineRes_eq, State.isLineRes_eq]
  by_cases e : y = x
  · rw [e, o.lineDef]
  · rw [State.lineDef, State.lineDef, o.others y e]

theorem State.foldl_beginItem_lineReports (xs : List ResNo) (s : State) (ht : ∀ x ∈ xs, s.isLineRes x = false) :
    (xs.foldl (fun s x => s.beginItem p x) s).lineReports = s.lineReports := by
  induction xs generalizing s with
  | nil => rfl
  | cons x xs ih =>
    have token : (s.beginItem p x).lineReports = s.lineReports := by
      have line := ht x (.head _)
      unfold State.beginItem
      unfold State.isLineRes at line
      split
      · rfl
      · rfl
      · next hk => rw [hk] at line; cases line
      · rfl
    rw [List.foldl_cons, ih _ fun y hy => ((s.beginItem_lineOrder x p).isLineRes y).trans (ht y (.tail _ hy)), token]

/-- What the reservation and grant of a request for TOKEN resources leaves, but for its slot and its notice (R38, R40). -/
structure State.TokensGranted (s u : State) (p : Port) (h : Handle) (f : Filing) : Prop where
  outside : s.SameOutsideClaimTable u
  claims : u.claims = s.claims.map fun c => if Claim.ofRequest p h c = true then s.granted c else c
  resource : ∀ i ∈ f.items, ∀ r sh st, s.resource i.resource = some r → r.kind = .token sh st →
    u.resource i.resource = some { r with grantNumber := r.grantNumber + 1, kind := .token sh .occupied }
  others : ∀ y, y ∉ f.items.map (fun i => i.resource) → u.resource y = s.resource y
  lineReports : u.lineReports = s.lineReports

theorem State.TokensGranted.after {u : State} (a : s.TokensGranted u p h f) (o : u.SameOutsideClaimTable t)
    (hc : t.claims = u.claims) (hr : ∀ x, t.resource x = u.resource x) (hl : t.lineReports = u.lineReports) :
    s.TokensGranted t p h f where
  outside := a.outside.trans o
  claims := hc.trans a.claims
  resource i hi r sh st h1 h2 := (hr _).trans (a.resource i hi r sh st h1 h2)
  others y hy := (hr y).trans (a.others y hy)
  lineReports := hl.trans a.lineReports

/-- The state in which every item of a request for TOKEN resources is granted. -/
def State.itemsGranted (s : State) (p : Port) (h : Handle) (f : Filing) : State :=
  (f.items.map fun i => i.resource).foldl (fun s x => s.grantItem p h x) (s.reserved p h f)

theorem State.itemsGranted_granted (hn : (f.items.map fun i => i.resource).Nodup)
    (ht : ∀ i ∈ f.items, ∃ sh st, s.kindOf i.resource = some (.token sh st))
    (hi : ∀ c ∈ s.claims, Claim.ofRequest p h c = true → c.resource ∈ f.items.map fun i => i.resource) :
    s.TokensGranted (s.itemsGranted p h f) p h f := by
  have reserved := State.reserved_resource (s := s) (p := p) (h := h) hn
  have granted := State.grants_resource p h _ hn (s.reserved p h f)
  refine ⟨(s.reserved_outside p h f).trans ?_, ?_, fun i hm r sh st hr hk => ?_, fun y hy => ?_, ?_⟩
  · exact (State.TableEvent.foldl (fun s x => s.grantItem p h x) (fun s x => State.grantItem_tableEvent s p h x) _ _).outside
  · refine (State.grants_claims p h _ hn _ fun x hx => ?_).trans (State.grantedClaims_reserved hn hi)
    obtain ⟨i, hm, rfl⟩ := List.mem_map.mp hx
    obtain ⟨sh, st, hk⟩ := ht i hm
    obtain ⟨r, hr, -⟩ := State.kindOf_eq_some hk
    rw [reserved, if_pos hx, hr]
    rfl
  · have hx : i.resource ∈ f.items.map fun i => i.resource := List.mem_map_of_mem hm
    rw [State.itemsGranted, granted, if_pos hx, reserved, if_pos hx, hr]
    simp [Resource.granted, hk, State.begunKind]
  · rw [State.itemsGranted, granted, if_neg hy, reserved, if_neg hy]
  · refine (State.grants_lineReports p h _ _).trans (State.foldl_beginItem_lineReports _ (s.setClaims _) fun x hx => ?_)
    obtain ⟨i, hm, rfl⟩ := List.mem_map.mp hx
    obtain ⟨sh, st, hk⟩ := ht i hm
    exact State.isLineRes_token (s := s) hk

theorem State.itemsGranted_slot (s : State) (p : Port) (h : Handle) (f : Filing) (q : Port) (k : Handle) :
    (s.itemsGranted p h f).slot q k = (s.reserved p h f).slot q k := State.slot_foldl_grantItem ..

theorem State.itemsGranted_queues (s : State) (p : Port) (h : Handle) (f : Filing) :
    (s.itemsGranted p h f).queues = s.queues := (State.grants_queues p h _ _).trans (s.reserved_queues p h f)

theorem State.TokensGranted.grantNumbers {u : State} (a : s.TokensGranted u p h f)
    (ht : ∀ i ∈ f.items, ∃ sh st, s.kindOf i.resource = some (.token sh st)) :
    u.grantNumbers (f.items.map fun i => i.resource) = f.items.map fun i => (i.resource, s.grantOf i.resource + 1) := by
  rw [State.grantNumbers, List.filterMap_map, ← List.filterMap_eq_map]
  refine List.filterMap_congr fun i hi => ?_
  obtain ⟨sh, st, hk⟩ := ht i hi
  obtain ⟨r, hr, hrk⟩ := State.kindOf_eq_some hk
  simp [a.resource i hi r sh st hr hrk, State.grantOf, hr]

/-- The grant of a request for TOKEN resources in an event that does not accept it (R40). -/
theorem State.reserve_tokens_none {tm : Option Time} (hs : s.slot p h = .waiting f tm)
    (ht : ∀ i ∈ f.items, ∃ sh st, s.kindOf i.resource = some (.token sh st)) :
    State.reserve none s p h = ((s.itemsGranted p h f).notify p
      (.granted h ((s.itemsGranted p h f).grantNumbers (f.items.map fun i => i.resource)))).setSlot p h
        (.done f.incarnation .granted) := by
  rw [State.reserve_tokens none hs fun i hi => ?_, State.grant_none (s.reserved_slot p h f)]
  · rfl
  · obtain ⟨sh, st, hk⟩ := ht i hi
    exact State.isLineRes_token hk

/-- The grant of a request for TOKEN resources in the event that accepts it (R31, R40). -/
theorem State.reserve_tokens_immediate {tm : Option Time} (hs : s.slot p h = .waiting f tm)
    (ht : ∀ i ∈ f.items, ∃ sh st, s.kindOf i.resource = some (.token sh st)) :
    State.reserve (some (p, h)) s p h = (s.itemsGranted p h f).setSlot p h .free := by
  rw [State.reserve_tokens _ hs fun i hi => ?_, State.grant, s.reserved_slot p h f]
  · exact if_pos rfl
  · obtain ⟨sh, st, hk⟩ := ht i hi
    exact State.isLineRes_token hk
end

end Sys2Proof.Machine
end

section
/-! ## "LIVE again" -/

namespace Sys2Proof.Machine

section
variable {s : State} {p : Port} {h : Handle} {x : ResNo} {f : Filing}

theorem exec_liveAgain {r : LiveReport} {pre post : List LiveReport} (hl : s.liveReports = pre ++ r :: post) (hr : r.port = p)
    (hpre : ∀ a ∈ pre, a.port ≠ p) : let t : State := { s with liveReports := pre ++ post }
    exec (.liveAgain p) s = .next (t.evaluate (t.headsOf r)).endOfEvent := by
  have found : (s.liveReports.find? fun a => a.port == p) = some r := by
    rw [hl, List.find?_append, List.find?_eq_none.mpr fun a ha => by simpa using hpre a ha]
    simp [hr]
  have rest : (s.liveReports.eraseP fun a => a.port == p) = pre ++ post := by
    rw [hl, List.eraseP_append_right _ fun a ha => by simpa using hpre a ha]
    simp [hr]
  show execLiveAgain p s = _
  unfold execLiveAgain
  rw [found]
  simp only [rest]

/-- The evaluation of a free TOKEN resource grants the one request that waits for it and for nothing else (R36 to R40). -/
theorem State.evaluate_grants {tm : Option Time} {c : Claim} {r : Resource} {sh : Bool} {st : TokenState}
    (hs : s.slot p h = .waiting f tm) (hitems : (f.items.map fun i => i.resource) = [x]) (hq : s.waitQueue x = [c])
    (hown : (s.claims.filter fun a => Claim.ofRequest p h a) = [c]) (ready : s.ready p h = true)
    (hr : s.resource x = some r) (hk : r.kind = .token sh st) : let u := s.evaluate [x]
    s.TokensGranted u p h f ∧ (∀ q k, u.slot q k = if p = q ∧ h = k then .done f.incarnation .granted else s.slot q k)
      ∧ ∀ q, u.queue q = if q = p then (s.queue p).add (.granted h [(x, r.grantNumber + 1)]) else s.queue q := by
  have named : ∀ i ∈ f.items, i.resource = x := fun i hi => by
    have : i.resource ∈ f.items.map fun i => i.resource := List.mem_map_of_mem hi
    rwa [hitems, List.mem_singleton] at this
  have kind : ∀ i ∈ f.items, ∃ sh st, s.kindOf i.resource = some (.token sh st) := fun i hi =>
    ⟨sh, st, by simp [named i hi, State.kindOf, hr, hk]⟩
  obtain ⟨hc, ho⟩ : c ∈ s.claims ∧ Claim.ofRequest p h c = true := by
    have : c ∈ s.claims.filter fun a => Claim.ofRequest p h a := by rw [hown]; simp
    exact List.mem_filter.mp this
  have own : ∀ a ∈ s.claims, Claim.ofRequest p h a = true → a.resource ∈ f.items.map fun i => i.resource := fun a ha hoa => by
    have : a ∈ s.claims.filter fun a => Claim.ofRequest p h a := List.mem_filter.mpr ⟨ha, hoa⟩
    rw [hown, List.mem_singleton] at this
    have hcq : c ∈ s.waitQueue x := by rw [hq]; simp
    rw [hitems, this, (State.mem_waitQueue.mp hcq).2.1]
    simp
  have granted := State.itemsGranted_granted (s := s) (p := p) (h := h) (by rw [hitems]; simp) kind own
  have live : (s.itemsGranted p h f).isOpen p = true := by
    have := State.clear_isOpen (s.ready_clear p h ready c hc ho)
    rwa [granted.outside.isOpen, ← (Claim.ofRequest_iff.mp ho).1]
  have reserve : s.evaluate [x] = _ :=
    (State.evaluateWith_one none hs ready (by simp) (fun i hi => by simp [named i hi]) fun y hy =>
      ⟨c, by rw [List.mem_singleton.mp hy]; exact hq, ho⟩).trans (State.reserve_tokens_none hs kind)
  have numbers : (s.itemsGranted p h f).grantNumbers (f.items.map fun i => i.resource) = [(x, r.grantNumber + 1)] := by
    have : (f.items.map fun i => i.resource).map (fun y => (y, s.grantOf y + 1)) = [(x, r.grantNumber + 1)] := by
      simp [hitems, State.grantOf, hr]
    rw [granted.grantNumbers kind, ← this, List.map_map]
    rfl
  rw [reserve, numbers]
  refine ⟨granted.after (.trans (State.notify_tableEvent _ _ _).outside (by constructor <;> rfl)) ?_ (fun y => ?_) ?_,
    fun q k => ?_, fun q => ?_⟩
  · exact State.notify_claims _ _ _
  · rw [State.resource_setSlot, State.resource, State.notify_resources]; rfl
  · exact State.notify_lineReports _ _ _
  · rw [State.slot_setSlot]
    split
    · rfl
    · next e => rw [State.slot_notify, State.itemsGranted_slot, State.reserved_slot_eq, if_neg e]
  · have queues : ∀ q, (s.itemsGranted p h f).queue q = s.queue q := fun q => by
      rw [State.queue, State.itemsGranted_queues]; rfl
    simp only [State.queue_setSlot, State.queue_notify, live, and_true, queues, eq_comm (a := p)]
end

/-- Settles O42: a head that is not ready is left, and the one that is ready is reserved and granted. -/
theorem liveAgainMovesTheHeads : Obligations.LiveAgainMovesTheHeads := by
  intro p r pre post s hl hr hpre t
  have exec_eq := exec_liveAgain hl hr hpre
  refine ⟨fun hidle => ?_, fun x h c fl tm res sh st hheads hslot hitems hqueue hown hready hres hkind => ?_⟩
  · rw [exec_eq, State.evaluate_idle t (t.headsOf r) hidle]
  · have heads : t.headsOf r = [x] := hheads
    rw [exec_eq, heads]
    obtain ⟨granted, slots, queues⟩ := State.evaluate_grants (s := t) hslot hitems hqueue hown hready hres hkind
    have named : ∃ i ∈ fl.items, i.resource = x := by
      have : x ∈ fl.items.map Item.resource := by rw [hitems]; simp
      exact List.mem_map.mp this
    obtain ⟨i, hi, rfl⟩ := named
    refine ⟨_, rfl, ?_, fun q k hq => ?_, ?_, ?_, fun y hy => ?_, ?_, fun q hq => ?_, ?_, ?_⟩
    · rw [State.endOfEvent_slot, slots, if_pos ⟨rfl, rfl⟩]
    · rw [State.endOfEvent_slot, slots, if_neg fun e => hq ⟨e.1.symm, e.2.symm⟩]; rfl
    · rw [State.endOfEvent_claims, granted.claims]; rfl
    · rw [State.endOfEvent_resource, granted.resource i hi res sh st hres hkind]
    · rw [State.endOfEvent_resource]
      exact granted.others y (by rw [show (fl.items.map fun i => i.resource) = _ from hitems]; simpa using hy)
    · rw [State.endOfEvent_queue, queues, if_pos rfl]; rfl
    · rw [State.endOfEvent_queue, queues, if_neg hq]; rfl
    · exact (granted.outside.trans (State.endOfEvent_outside _)).liveReports
    · exact granted.outside.trans (State.endOfEvent_outside _)

end Sys2Proof.Machine
end

section
/-! ## The acceptance of a CLAIM -/

namespace Sys2Proof.Machine

/-- The CLAIM `f` of port `p`, for the handle `h`, passes every check (R27, R28, R29). -/
structure State.Acceptable (s : State) (p : Port) (h : Handle) (f : Frame) : Prop where
  offered : s.Offered .claim p f
  openFor : s.OpenFor p f
  service : s.mode = .service
  handle : (f.byte 0).toNat = h.val
  nonempty : 1 ≤ f.itemCount
  few : f.itemCount ≤ 4
  count : (f.byte 3).toNat = f.itemCount
  bytes : ∀ b ∈ f.itemBytes, b.1.toNat ≤ 63 ∧ (b.2 = 0 ∨ b.2 = 1)
  distinct : (f.items.map fun i => i.resource).Nodup
  free : s.slot p h = .free
  room : f.items.length ≤ s.freeCount
  kind : ∀ i ∈ f.items, ∃ k, s.kindOf i.resource = some k ∧ k.isFaulted = false ∧ (i.mode = .shared → k.isShareable = true)
  unclaimed : ∀ i ∈ f.items, ∀ a ∈ s.claims, a.resource = i.resource → a.owner ≠ p
  unrevoked : ∀ i ∈ f.items, s.revocationPending p i.resource = false

/-- The filing of a CLAIM in the state `s` (R30). -/
def State.filing (s : State) (p : Port) (f : Frame) : Filing :=
  { incarnation := s.incarnation p, items := f.items, waitLimit := f.word 1 }

/-- The state in which the CLAIM has been filed (R30). -/
def State.filedState (s : State) (p : Port) (h : Handle) (f : Frame) : State := s.fileRequest p h f.items (f.word 1)

/-- The event in which the CLAIM is accepted (R30). -/
def State.acceptEvent (s : State) (p : Port) (h : Handle) (f : Frame) : State := s.accept p h f.items (f.word 1)

section
variable {s t : State} {p : Port} {h : Handle} {f : Frame}

theorem State.Acceptable.tableChecks (a : s.Acceptable p h f) : firstRefusal (s.claimTableChecks p f) = none := by
  refine firstRefusal_none.mpr ?_
  have kindOf_resource : ∀ i ∈ f.items, ∃ r, s.resource i.resource = some r := fun i hi => by
    obtain ⟨k, hk, -⟩ := a.kind i hi
    obtain ⟨r, hr, -⟩ := State.kindOf_eq_some hk
    exact ⟨r, hr⟩
  simp only [State.claimTableChecks, List.forall_mem_cons, List.any_eq_false]
  refine ⟨fun i hi => ?_, fun i hi => ?_, fun i hi => ?_, ?_, ?_, fun i hi => ?_, fun i hi => ?_, ?_, nofun⟩
  · obtain ⟨r, hr⟩ := kindOf_resource i hi
    simp [hr]
  · obtain ⟨k, hk, -, hsh⟩ := a.kind i hi
    cases hm : i.mode with
    | exclusive => simp
    | shared => simp [hk, hsh hm]
  · obtain ⟨k, hk, hf, -⟩ := a.kind i hi
    simp [hk, hf]
  · simp [handleOf_eq a.handle, a.free]
  · simp [a.distinct]
  · rw [State.claimOn_isSome]
    rintro ⟨c, hc, ho, hr⟩
    exact a.unclaimed i hi c hc hr ho
  · simp [a.unrevoked i hi]
  · simpa using a.room

theorem State.Acceptable.verdict (a : s.Acceptable p h f) : claimVerdict p f (s.taking .claim p f) =
    acceptedAnswer p h (f.items.map fun i => i.resource) ((s.taking .claim p f).acceptEvent p h f) := by
  have parameters := Frame.claimParameters_good (by have := a.handle; omega) (by have := a.count; have := a.nonempty; omega)
    (by have := a.count; have := a.few; omega) a.count a.bytes
  rw [a.openFor.claim_verdict a.service, Verdict.checked_append parameters, Verdict.checked_none a.tableChecks, State.claimGo,
    handleOf_eq a.handle]
  rfl

theorem State.Acceptable.files (a : s.Acceptable p h f) :
    (s.taking .claim p f).Files ((s.taking .claim p f).filedState p h f) p h ((s.taking .claim p f).filing p f)
      ((s.taking .claim p f).waitTimer (f.word 1)) := by
  have len : f.items.length = f.itemCount := by simp [Frame.items, Frame.itemBytes]
  have nonempty : f.items ≠ [] := fun e => by
    have := a.nonempty
    rw [← len, e] at this; simp at this
  have pos := List.length_pos_iff.mpr nonempty
  have room := a.room
  unfold State.freeCount at room
  refine ⟨fun i hi => ?_, by simpa using a.free, a.distinct, fun i hi c hc ho hr => ?_, nonempty, ?_, by simpa using a.service,
    rfl, fun q k => by rw [State.filedState, State.fileRequest, State.slot_setSlot]; rfl, fun _ => rfl, rfl, rfl⟩
  · obtain ⟨k, hk, -⟩ := a.kind i hi
    obtain ⟨r, hr, -⟩ := State.kindOf_eq_some hk
    simp [hr]
  · exact a.unclaimed i hi c (by simpa using hc) hr ho
  · rw [State.taking_claims]
    show _ + f.items.length ≤ _
    omega

theorem State.Acceptable.granted (a : s.Acceptable p h f)
    (hs : ((s.taking .claim p f).acceptEvent p h f).slot p h = .free) :
    let u := (s.taking .claim p f).acceptEvent p h f
    let body := grantedRecord h (u.claimGrants p (f.items.map fun i => i.resource))
    exec (.claim p) s = .next (u.endOfEvent.place p f .granted body true)
      ∧ s.Answered (u.endOfEvent.place p f .granted body true) p f .granted body := by
  have verdict := a.verdict
  rw [acceptedAnswer, if_pos hs] at verdict
  obtain ⟨hexec, hans, -⟩ := a.offered.executed verdict
  exact ⟨hexec, hans⟩

theorem State.Acceptable.accepted (a : s.Acceptable p h f)
    (hs : ((s.taking .claim p f).acceptEvent p h f).slot p h ≠ .free) :
    let u := (s.taking .claim p f).acceptEvent p h f
    exec (.claim p) s = .next (u.endOfEvent.place p f .accepted [byteOf h] true)
      ∧ s.Answered (u.endOfEvent.place p f .accepted [byteOf h] true) p f .accepted [byteOf h] := by
  have verdict := a.verdict
  rw [acceptedAnswer, if_neg hs] at verdict
  obtain ⟨hexec, hans, -⟩ := a.offered.executed verdict
  exact ⟨hexec, hans⟩

/-! ### A CLAIM of free resources -/

/-- An item that can be reserved at once: nobody waits for its resource, none of whose claims is to yield (R33, R37). -/
structure State.FreeFor (s : State) (i : Item) : Prop where
  nobody : s.waitQueue i.resource = []
  kind : ∃ k, s.kindOf i.resource = some k ∧ k.isFaulted = false ∧ (i.mode = .exclusive → k.takesExclusive = true)
  exclusive : i.mode = .exclusive → s.assigned i.resource = []
  shared : ∀ a ∈ s.assigned i.resource, a.mode = .shared
  intime : ∀ a ∈ s.assigned i.resource, a.state.isOvertime = false

theorem State.FreeFor.taking {i : Item} (a : s.FreeFor i) (k : RequestKind) : (s.taking k p f).FreeFor i := by
  obtain ⟨nobody, ⟨kd, hk, hkind⟩, exclusive, shared, intime⟩ := a
  exact ⟨by simpa using nobody, ⟨kd, by simpa using hk, hkind⟩, by simpa using exclusive, by simpa using shared,
    by simpa using intime⟩

/-- A session has no claim on a resource for which nobody waits and of which it has nothing (R22). -/
theorem State.unclaimed_of {x : ResNo} (hw : s.waitQueue x = []) (ha : ∀ a ∈ s.assigned x, a.owner ≠ p) :
    ∀ c ∈ s.claims, c.resource = x → c.owner ≠ p := by
  rintro c hc rfl
  rcases State.waits_or_assigned hc with hm | hm
  · rw [hw] at hm; cases hm
  · exact ha c hm

/-- A resource free for a CLAIM of TOKEN resources and of VACANT and COOLING LINE resources (R28, R33). -/
theorem Kind.free_cases {k : Kind} {m : ClaimMode}
    (h : (∃ sh st, k = .token sh st ∧ st ≠ .faulted ∧ (m = .shared → sh = true))
      ∨ (m = .exclusive ∧ ∃ d st lu, k = .line d st lu ∧ (st = .vacant ∨ st = .cooling))) :
    k.isFaulted = false ∧ (m = .shared → k.isShareable = true) ∧ k.takesExclusive = true := by
  rcases h with ⟨sh, st, rfl, hst, hsh⟩ | ⟨rfl, d, st, lu, rfl, rfl | rfl⟩
  · refine ⟨?_, hsh, rfl⟩
    cases st with
    | faulted => exact absurd rfl hst
    | vacant | occupied => rfl
  · exact ⟨rfl, nofun, rfl⟩
  · exact ⟨rfl, nofun, rfl⟩

/-- The conditions of R33 under which a claim is clear. -/
theorem State.clear_of {c : Claim} {k : Kind} (head : s.headClaim c.resource = some c) (hk : s.kindOf c.resource = some k)
    (hf : k.isFaulted = false) (exclusive : c.mode = .exclusive → s.assigned c.resource = [] ∧ k.takesExclusive = true)
    (shared : c.mode = .shared → ∀ a ∈ s.assigned c.resource, a.mode = .shared) (live : s.isLive c.owner = true)
    (service : s.mode = .service) : s.clear c = true := by
  unfold State.clear
  rw [hk]
  cases hm : c.mode with
  | exclusive =>
    obtain ⟨he, ht⟩ := exclusive hm
    simp [head, hf, he, ht, live, service]
  | shared => simpa [head, hf, live, service] using shared hm

theorem ClaimState.isAssigned_of_isOvertime {st : ClaimState} (h : st.isOvertime = true) : st.isAssigned = true :=
  ClaimState.isAssigned_of_isHeld (ClaimState.isHeld_of_isOvertime h)

/-- Where no holding is OVERTIME none begins yielding (R30, R62). -/
theorem State.beginYield_none {x : ResNo} {sel : Claim → Bool} (h : ∀ c ∈ s.assigned x, c.state.isOvertime = false) :
    s.beginYield x sel = s := by
  have due : ∀ c ∈ s.claims, (c.resource == x && c.state.isOvertime && sel c) = false := fun c hc => by
    by_contra hh
    simp only [Bool.not_eq_false, Bool.and_eq_true, beq_iff_eq] at hh
    have := h c (State.mem_assigned.mpr ⟨hc, hh.1.1, ClaimState.isAssigned_of_isOvertime hh.1.2⟩)
    rw [hh.1.2] at this; cases this
  unfold State.beginYield
  dsimp only
  split
  · rfl
  · split
    · refine State.revoke_none fun c hc _ => ?_
      simp [h c hc]
    · have none : (s.claims.filter fun c => c.resource == x && c.state.isOvertime && sel c) = [] :=
        List.filter_eq_nil_iff.mpr fun c hc => by simp [due c hc]
      rw [none, List.foldl_nil]
      refine congrArg s.setClaims ((List.map_congr_left fun c hc => ?_).trans (List.map_id s.claims))
      exact if_neg (by rw [due c hc]; simp)

theorem State.foldl_beginYield_none {sel : Claim → Bool} (xs : List ResNo)
    (h : ∀ x ∈ xs, ∀ c ∈ s.assigned x, c.state.isOvertime = false) : xs.foldl (fun s x => s.beginYield x sel) s = s := by
  induction xs with
  | nil => rfl
  | cons x xs ih =>
    rw [List.foldl_cons, State.beginYield_none (h x (.head _))]
    exact ih fun y hy => h y (.tail _ hy)

section
variable {fl : Filing} {tm : Option Time} (filed : s.Files t p h fl tm)
include filed

theorem State.Files.assigned (x : ResNo) : t.assigned x = s.assigned x := by
  have waiting : (fl.items.map fun i => ({ owner := p, resource := i.resource, mode := i.mode, state := .waiting h } : Claim)).filter
      (fun c => c.resource == x && c.state.isAssigned) = [] := List.filter_eq_nil_iff.mpr fun c hc => by
    obtain ⟨i, -, rfl⟩ := List.mem_map.mp hc
    simp [ClaimState.isAssigned]
  rw [State.assigned, filed.claims, List.filter_append, waiting, List.append_nil, State.assigned]

theorem State.Files.waitQueue_item {i : Item} (hi : i ∈ fl.items) (hw : s.waitQueue i.resource = []) :
    t.waitQueue i.resource = [i.filed p h] := by
  have mem : i.filed p h ∈ fl.filedOn p h i.resource :=
    List.mem_map.mpr ⟨i, List.mem_filter.mpr ⟨hi, beq_self_eq_true _⟩, rfl⟩
  have le := Filing.filedOn_length (p := p) (h := h) filed.distinct i.resource
  rw [filed.waitQueue, hw, List.nil_append]
  match hl : fl.filedOn p h i.resource with
  | [] => rw [hl] at mem; cases mem
  | [c] => rw [hl, List.mem_singleton] at mem; rw [mem]
  | _ :: _ :: _ => rw [hl] at le; simp at le

/-- R23: the claims of the request are those filed. -/
theorem State.Files.own (law : s.TableLaw) {c : Claim} (hc : c ∈ t.claims) (ho : Claim.ofRequest p h c = true) :
    ∃ i ∈ fl.items, c = i.filed p h := by
  refine (filed.mem.mp hc).resolve_left fun hc => ?_
  obtain ⟨rfl, hh⟩ := Claim.ofRequest_iff.mp ho
  have backs := law.backed c hc h hh
  rw [filed.free] at backs
  exact backs

/-- A request whose items are all free is ready as soon as it is filed (R33, R35). -/
theorem State.Files.ready (law : s.TableLaw) (kinds : ∀ x, t.kindOf x = s.kindOf x) (live : t.isLive p = true)
    (free : ∀ i ∈ fl.items, s.FreeFor i) : t.ready p h = true := by
  have slot : t.slot p h = .waiting fl tm := by rw [filed.slot, if_pos ⟨rfl, rfl⟩]
  have clear : ∀ c ∈ t.claims, Claim.ofRequest p h c = true → t.clear c = true := fun c hc ho => by
    obtain ⟨i, hi, rfl⟩ := filed.own law hc ho
    obtain ⟨k, hk, hf, he⟩ := (free i hi).kind
    refine State.clear_of (k := k) ?_ ((kinds _).trans hk) hf (fun hm => ⟨?_, he hm⟩) (fun _ a ha => ?_) live
      (filed.mode.trans filed.service)
    · show (t.waitQueue i.resource).head? = _
      rw [filed.waitQueue_item hi (free i hi).nobody]
      rfl
    · exact (filed.assigned _).trans ((free i hi).exclusive hm)
    · exact (free i hi).shared a (by rwa [filed.assigned] at ha)
  rw [State.ready, slot]
  simp only [Bool.true_and, List.all_eq_true]
  intro c hc
  cases ho : Claim.ofRequest p h c with
  | false => rfl
  | true => simp [clear c hc ho]
end

/-- A CLAIM of free resources is reserved in its acceptance event (R31, R36). -/
theorem State.acceptEvent_free
    (filed : s.Files (s.filedState p h f) p h (s.filing p f) (s.waitTimer (f.word 1))) (law : s.TableLaw)
    (live : s.isLive p = true) (free : ∀ i ∈ f.items, s.FreeFor i) :
    s.acceptEvent p h f = State.reserve (some (p, h)) (s.filedState p h f) p h := by
  have named : ∀ x ∈ f.items.map (fun i => i.resource), ∃ i ∈ f.items, i.resource = x := fun x hx => List.mem_map.mp hx
  have yields : (f.items.map fun i => i.resource).foldl (fun s x => s.beginYield x fun _ => true) (s.filedState p h f) =
      s.filedState p h f := State.foldl_beginYield_none _ fun x hx c hc => by
    obtain ⟨i, hi, rfl⟩ := named x hx
    rw [filed.assigned] at hc
    exact (free i hi).intime c hc
  refine (congrArg (fun t => State.evaluateWith (some (p, h)) t (f.items.map fun i => i.resource)) yields).trans ?_
  refine State.evaluateWith_one _ (f := s.filing p f) ((filed.slot p h).trans (if_pos ⟨rfl, rfl⟩))
    (filed.ready law (fun _ => rfl) live free) ?_ (fun i hi => List.mem_map_of_mem hi) fun x hx => ?_
  · exact fun e => filed.nonempty (List.map_eq_nil_iff.mp e)
  · obtain ⟨i, hi, rfl⟩ := named x hx
    exact ⟨i.filed p h, filed.waitQueue_item hi (free i hi).nobody, Claim.ofRequest_iff.mpr ⟨rfl, rfl⟩⟩

/-- The claims of a request filed alone become those that `g` makes of them, the others stand. -/
theorem State.Files.map_own {fl : Filing} {tm : Option Time} (filed : s.Files t p h fl tm) (law : s.TableLaw) (g : Claim → Claim) :
    (t.claims.map fun c => if Claim.ofRequest p h c = true then g c else c) =
      s.claims ++ fl.items.map fun i => g (i.filed p h) := by
  have old : ∀ c ∈ s.claims, Claim.ofRequest p h c ≠ true := fun c hc ho => by
    obtain ⟨rfl, hh⟩ := Claim.ofRequest_iff.mp ho
    have backs := law.backed c hc h hh
    rw [filed.free] at backs
    exact backs
  rw [filed.claims, List.map_append, List.map_map]
  refine congrArg₂ _ ((List.map_congr_left fun c hc => if_neg (old c hc)).trans (List.map_id _)) ?_
  exact List.map_congr_left fun i _ => if_pos (Claim.ofRequest_iff.mpr ⟨rfl, rfl⟩)
end

end Sys2Proof.Machine
end

section
/-! ## The grant of free TOKEN resources -/

namespace Sys2Proof.Machine

section
variable {s : State} {p : Port} {h : Handle} {f : Frame}

/-- The claim that a CLAIM of free TOKEN resources holds on an item (R8, R40). -/
def State.heldClaim (s : State) (p : Port) (i : Item) : Claim :=
  { owner := p, resource := i.resource, mode := i.mode, state := .held (s.grantOf i.resource + 1) (s.holdAt i.resource) }

theorem State.taking_heldClaim (s : State) (k : RequestKind) (p : Port) (f : Frame) :
    (s.taking k p f).heldClaim p = s.heldClaim p := funext fun i => by
  simp [State.heldClaim, State.grantOf, State.holdAt, State.holdStart]

theorem State.filedState_outside (s : State) (p : Port) (h : Handle) (f : Frame) :
    s.SameOutsideClaimTable (s.filedState p h f) := by constructor <;> rfl

/-- The grant numbers of claims granted together, in the order of their items (R31, R189). -/
theorem State.claimGrants_held {u : State} (items : List Item) (hn : (items.map fun i => i.resource).Nodup)
    (hc : u.claims = s.claims ++ items.map (s.heldClaim p))
    (unclaimed : ∀ i ∈ items, ∀ c ∈ s.claims, c.resource = i.resource → c.owner ≠ p) :
    u.claimGrants p (items.map fun i => i.resource) = items.map fun i => (i.resource, s.grantOf i.resource + 1) := by
  have claimOn : ∀ i ∈ items, u.claimOn p i.resource = some (s.heldClaim p i) := fun i hi => by
    have old : (s.claims.find? fun c => c.owner == p && c.resource == i.resource) = none :=
      List.find?_eq_none.mpr fun c hm => by
        simp only [Bool.and_eq_true, beq_iff_eq, not_and]
        exact fun ho hr => unclaimed i hi c hm hr ho
    rw [State.claimOn, hc, List.find?_append, old, Option.none_or, List.find?_map]
    have found : (items.find? fun j => j.resource == i.resource) = some i := by
      cases hf : items.find? fun j => j.resource == i.resource with
      | none => simpa using List.find?_eq_none.mp hf i hi
      | some j =>
        have hr : j.resource = i.resource := by simpa using List.find?_some hf
        rw [List.inj_on_of_nodup_map hn (List.mem_of_find?_eq_some hf) hi hr]
    have same : ((fun c : Claim => c.owner == p && c.resource == i.resource) ∘ s.heldClaim p) =
        fun j : Item => j.resource == i.resource := funext fun j => by simp [State.heldClaim]
    rw [same, found]
    rfl
  rw [State.claimGrants, List.filterMap_map, ← List.filterMap_eq_map]
  refine List.filterMap_congr fun i hi => ?_
  rw [Function.comp_apply, claimOn i hi]
  rfl

theorem State.acceptEvent_tokens
    (filed : s.Files (s.filedState p h f) p h (s.filing p f) (s.waitTimer (f.word 1))) (law : s.TableLaw)
    (live : s.isLive p = true) (free : ∀ i ∈ f.items, s.FreeFor i)
    (tokens : ∀ i ∈ f.items, ∃ sh st, s.kindOf i.resource = some (.token sh st)) :
    let u := s.acceptEvent p h f
    (s.filedState p h f).TokensGranted u p h (s.filing p f)
      ∧ u.claims = s.claims ++ f.items.map (s.heldClaim p) ∧ u.queues = s.queues
      ∧ ∀ q k, u.slot q k = if p = q ∧ h = k then .free else s.slot q k := by
  intro u
  have event : u = ((s.filedState p h f).itemsGranted p h (s.filing p f)).setSlot p h .free :=
    (State.acceptEvent_free filed law live free).trans
      (State.reserve_tokens_immediate ((filed.slot p h).trans (if_pos ⟨rfl, rfl⟩)) tokens)
  have granted := State.itemsGranted_granted (s := s.filedState p h f) (p := p) (h := h) (f := s.filing p f) filed.distinct
    tokens fun c hc ho => by
      obtain ⟨i, hi, rfl⟩ := filed.own law hc ho
      exact List.mem_map_of_mem hi
  rw [event]
  refine ⟨granted.after (by constructor <;> rfl) rfl (fun _ => rfl) rfl, ?_, ?_, fun q k => ?_⟩
  · exact granted.claims.trans (filed.map_own law _)
  · exact (State.itemsGranted_queues ..).trans rfl
  · rw [State.slot_setSlot, State.itemsGranted_slot, State.reserved_slot_eq]
    split
    · rfl
    · next e => rw [filed.slot, if_neg e]
end

/-- Settles O24: the filed request is ready, and it is reserved and granted before its acceptance event ends. -/
theorem freeTokensAreGrantedAtOnce : Obligations.FreeTokensAreGrantedAtOnce := by
  intro p h f s law hof hlive hinc hmode hh h1 h4 hcount hbytes hn hfree hroom hitems
  simp only [imp_and, forall_and] at hitems
  obtain ⟨hkind, hwait, hexcl, ⟨hshared, hintime, howner⟩, hrevoked⟩ := hitems
  have unclaimed : ∀ i ∈ f.items, ∀ c ∈ s.claims, c.resource = i.resource → c.owner ≠ p := fun i hi =>
    State.unclaimed_of (hwait i hi) (howner i hi)
  have tokens : ∀ i ∈ f.items, ∃ sh st, s.kindOf i.resource = some (.token sh st) := fun i hi =>
    let ⟨sh, st, hk, _⟩ := hkind i hi
    ⟨sh, st, hk⟩
  have kinds : ∀ i ∈ f.items, ∃ k, s.kindOf i.resource = some k ∧ k.isFaulted = false
      ∧ (i.mode = .shared → k.isShareable = true) ∧ k.takesExclusive = true := fun i hi => by
    obtain ⟨sh, st, hk, hst⟩ := hkind i hi
    exact ⟨_, hk, Kind.free_cases (.inl ⟨sh, st, rfl, hst⟩)⟩
  have acceptable : s.Acceptable p h f := ⟨hof, ⟨State.isOpen_of_isLive hlive, hinc⟩, hmode, hh, h1, h4, hcount, hbytes, hn,
    hfree, hroom, fun i hi => (kinds i hi).imp fun k ⟨hk, hf, hsh, _⟩ => ⟨hk, hf, hsh⟩, unclaimed, hrevoked⟩
  have free : ∀ i ∈ f.items, s.FreeFor i := fun i hi =>
    ⟨hwait i hi, (kinds i hi).imp fun k ⟨hk, hf, _, ht⟩ => ⟨hk, hf, fun _ => ht⟩, hexcl i hi, hshared i hi, hintime i hi⟩
  obtain ⟨granted, claims, queues, slots⟩ := State.acceptEvent_tokens acceptable.files
    ((s.taking_sameTable .claim p f).tableLaw law) (by simpa using hlive) (fun i hi => (free i hi).taking .claim)
    (by simpa using tokens)
  obtain ⟨hexec, hans⟩ := acceptable.granted (by rw [slots, if_pos ⟨rfl, rfl⟩])
  rw [State.taking_claims, State.taking_heldClaim] at claims
  have numbers := State.claimGrants_held f.items hn claims unclaimed
  rw [numbers] at hexec hans
  obtain ⟨hsup, hin, hev, hother⟩ := ((State.filedState_outside _ p h f).trans granted.outside).served .granted
    (grantedRecord h (f.items.map fun i => (i.resource, s.grantOf i.resource + 1)))
  refine ⟨_, hexec, hans, ?_, fun q k => ?_, ?_, fun i hi r sh st hr hk => ?_, fun x hx => ?_, ?_, hsup, hin, fun q hq => ?_, hev⟩
  · rw [State.place_claims, State.endOfEvent_claims, claims]
    rfl
  · rw [State.slot_place, State.endOfEvent_slot, slots]
    split
    · next e => rw [← e.1, ← e.2, hfree]
    · exact State.taking_slot ..
  · rw [State.place_queues, State.endOfEvent_queues, queues, State.taking_queues]
  · rw [State.resource_place, State.endOfEvent_resource]
    exact granted.resource i hi r sh st ((State.taking_resource s .claim p f _).trans hr) hk
  · rw [State.resource_place, State.endOfEvent_resource]
    exact (granted.others x hx).trans (State.taking_resource s .claim p f x)
  · rw [State.place_lineReports, State.endOfEvent_lineReports]
    exact granted.lineReports.trans (State.taking_lineReports s .claim p f)
  · obtain ⟨hsession, hport⟩ := hother q hq
    exact ⟨hsession, by rw [State.queue, State.place_queues, State.endOfEvent_queues, queues, State.taking_queues]; rfl, hport⟩

end Sys2Proof.Machine
end

section
/-! ## The reservation of free resources with a LINE item -/

namespace Sys2Proof.Machine

section
variable {s : State} {p : Port} {h : Handle} {f : Frame} {x : ResNo}

/-- An engagement without confirm input is reported at once (R90). -/
theorem State.beginItem_reports {d : LineDef} {lu : PhaseRecord} (hk : s.kindOf x = some (.line d .vacant lu))
    (hc : d.confirm = none) : { resource := x, kind := .engagedSeen, current := true } ∈ (s.beginItem p x).lineReports := by
  have hd := State.lineDef_of_kindOf hk
  have e : s.beginItem p x = ((s.drivePattern x p).startEngage x).setLineState x .engage := by
    simp [State.beginItem, hk, State.engageOrVerify, hd, hc]
  obtain ⟨-, -, quiet⟩ := (s.drivePattern x p).startEngage_spec x d .vacant _ (State.kindOf_order s x _ d _ lu hk)
  rw [e]
  exact (quiet hc).2

theorem State.foldl_beginItem_reports {d : LineDef} {lu : PhaseRecord} (xs : List ResNo) (hn : xs.Nodup) (hx : x ∈ xs) (s : State)
    (hk : s.kindOf x = some (.line d .vacant lu)) (hc : d.confirm = none) :
    { resource := x, kind := .engagedSeen, current := true } ∈ (xs.foldl (fun s x => s.beginItem p x) s).lineReports := by
  induction xs generalizing s with
  | nil => cases hx
  | cons y xs ih =>
    rw [List.nodup_cons] at hn
    rw [List.foldl_cons]
    by_cases e : x = y
    · subst e
      have reported : { resource := x, kind := .engagedSeen, current := true } ∈ (s.beginItem p x).reportsOn x :=
        List.mem_filter.mpr ⟨State.beginItem_reports hk hc, by simp⟩
      rw [← State.reportsOn_foldl_beginItem (p := p) xs _ hn.1] at reported
      exact (List.mem_filter.mp reported).1
    · refine ih hn.2 ((List.mem_cons.mp hx).resolve_left e) _ ?_
      rw [State.kindOf, (s.beginItem_lineOrder y p).others x e]
      exact hk

theorem State.taking_isLineRes (s : State) (k : RequestKind) (p : Port) (f : Frame) :
    (s.taking k p f).isLineRes = s.isLineRes := funext fun x => by simp [State.isLineRes]

theorem State.taking_waitTimer (s : State) (k : RequestKind) (p : Port) (f : Frame) (limit : Word16) :
    (s.taking k p f).waitTimer limit = s.waitTimer limit := by simp [State.waitTimer]

theorem State.taking_filing (s : State) (k : RequestKind) (p : Port) (f : Frame) :
    (s.taking k p f).filing p f = s.filing p f := by simp [State.filing]

/-- A CLAIM of free resources with a LINE item stands reserved at the end of its acceptance event (R31, R38). -/
theorem State.acceptEvent_lines
    (filed : s.Files (s.filedState p h f) p h (s.filing p f) (s.waitTimer (f.word 1))) (law : s.TableLaw)
    (live : s.isLive p = true) (free : ∀ i ∈ f.items, s.FreeFor i) (line : ∃ i ∈ f.items, s.isLineRes i.resource = true) :
    s.acceptEvent p h f = (s.filedState p h f).reserved p h (s.filing p f) := by
  rw [State.acceptEvent_free filed law live free,
    State.reserve_waiting _ ((filed.slot p h).trans (if_pos ⟨rfl, rfl⟩)), if_neg]
  obtain ⟨i, hi, hl⟩ := line
  rw [List.isEmpty_iff, List.filter_eq_nil_iff]
  exact fun none => none i.resource (List.mem_map_of_mem hi) hl

end

end Sys2Proof.Machine
end

section
/-! ## Holdings that begin yielding -/

namespace Sys2Proof.Machine

/-- A claim once the OVERTIME holdings of the resources `xs` have begun yielding (R62). -/
def State.yieldClaim (s : State) (xs : List ResNo) (c : Claim) : Claim :=
  if c.state.isOvertime = true ∧ c.resource ∈ xs then
    { c with state := .held (c.state.grant.getD 0) (.yielding (s.now + msUnits ((s.graceOf c.resource).getD 0))) }
  else c

theorem State.taking_yieldClaim (s : State) (k : RequestKind) (p : Port) (f : Frame) (xs : List ResNo) :
    (s.taking k p f).yieldClaim xs = s.yieldClaim xs := funext fun c => by simp [State.yieldClaim]

/-- The OVERTIME holdings of the resources `xs` have begun yielding, but for their notices (R30, R62). -/
structure State.Yields (s t : State) (xs : List ResNo) : Prop where
  claims : t.claims = s.claims.map (s.yieldClaim xs)
  slots : t.slots = s.slots
  resources : t.resources = s.resources
  lineReports : t.lineReports = s.lineReports
  event : s.TableEvent t

/-- Beginning to yield takes no claim from the resource: it has a grace, or no OVERTIME holding (R62). -/
def State.YieldsGently (s : State) (x : ResNo) : Prop :=
  (s.graceOf x).isSome = true ∧ (s.graceOf x ≠ some 0 ∨ ∀ c ∈ s.assigned x, c.state.isOvertime = false)

section
variable {s t u : State} {p : Port} {h : Handle} {f : Frame} {x y : ResNo} {xs : List ResNo}

theorem State.yieldClaim_key (s : State) (xs : List ResNo) (c : Claim) : (s.yieldClaim xs c).key = c.key := by
  unfold State.yieldClaim; split <;> rfl

theorem State.yieldClaim_mode (s : State) (xs : List ResNo) (c : Claim) : (s.yieldClaim xs c).mode = c.mode := by
  unfold State.yieldClaim; split <;> rfl

theorem State.yieldClaim_assigned (s : State) (xs : List ResNo) (c : Claim) :
    (s.yieldClaim xs c).state.isAssigned = c.state.isAssigned := by
  unfold State.yieldClaim
  split
  · next hc => exact (ClaimState.isAssigned_of_isOvertime hc.1).symm
  · rfl

theorem State.yieldClaim_other {c : Claim} (hc : c.state.isOvertime = false ∨ c.resource ∉ xs) : s.yieldClaim xs c = c :=
  if_neg fun h => hc.elim (fun e => by rw [h.1] at e; cases e) fun e => e h.2

theorem State.yieldClaim_intime (s : State) (c : Claim) :
    s.yieldClaim xs c = c ∨ (s.yieldClaim xs c).state.isOvertime = false := by
  unfold State.yieldClaim
  split
  · exact .inr rfl
  · exact .inl rfl

/-- One resource's OVERTIME holdings begin yielding (R62). -/
theorem State.beginYield_yields (hg : s.YieldsGently x) : s.Yields (s.beginYield x fun _ => true) [x] := by
  have event := State.beginYield_tableEvent s x fun _ => true
  obtain ⟨grace, hgrace⟩ := Option.isSome_iff_exists.mp hg.1
  by_cases none : ∀ c ∈ s.assigned x, c.state.isOvertime = false
  · rw [State.beginYield_none none] at event ⊢
    refine ⟨?_, rfl, rfl, rfl, event⟩
    refine ((List.map_congr_left fun c hc => ?_).trans (List.map_id s.claims)).symm
    refine State.yieldClaim_other ?_
    by_cases e : c.resource = x
    · cases ho : c.state.isOvertime with
      | false => exact .inl rfl
      | true =>
        have := none c (State.mem_assigned.mpr ⟨hc, e, ClaimState.isAssigned_of_isOvertime ho⟩)
        rw [ho] at this; cases this
    · exact .inr (by simpa using e)
  · have nonzero : grace ≠ 0 := fun e => (hg.2.resolve_right none) (by rw [hgrace, e])
    unfold State.beginYield at event ⊢
    simp only [hgrace, nonzero, if_false] at event ⊢
    refine ⟨?_, State.foldl_notify_slots _ _ _ _, State.foldl_notify_resources _ _ _ _, State.foldl_notify_lineReports _ _ _ _,
      event⟩
    rw [State.foldl_notify_claims, State.claims_setClaims]
    refine List.map_congr_left fun c _ => ?_
    by_cases hc : c.resource = x ∧ c.state.isOvertime = true
    · simp [State.yieldClaim, hc.1, hc.2, hgrace]
    · have : ¬ (c.state.isOvertime = true ∧ c.resource ∈ [x]) := fun e => hc ⟨List.mem_singleton.mp e.2, e.1⟩
      simp only [State.yieldClaim, if_neg this]
      exact if_neg fun e => hc (by simpa using e)

theorem State.Yields.graceOf (a : s.Yields t xs) (y : ResNo) : t.graceOf y = s.graceOf y := by
  simp [State.graceOf, State.resource, a.resources]

theorem State.Yields.gently (a : s.Yields t xs) (hg : s.YieldsGently y) : t.YieldsGently y := by
  unfold State.YieldsGently at *
  rw [a.graceOf]
  refine ⟨hg.1, hg.2.imp id fun none c hc => ?_⟩
  obtain ⟨hm, hr, ha⟩ := State.mem_assigned.mp hc
  rw [a.claims] at hm
  obtain ⟨d, hd, rfl⟩ := List.mem_map.mp hm
  rcases s.yieldClaim_intime (xs := xs) d with e | e
  · rw [e] at hr ha ⊢
    exact none d (State.mem_assigned.mpr ⟨hd, hr, ha⟩)
  · exact e

theorem State.Yields.trans (a : s.Yields u [x]) (b : u.Yields t xs) : s.Yields t (x :: xs) := by
  refine ⟨?_, b.slots.trans a.slots, b.resources.trans a.resources, b.lineReports.trans a.lineReports, a.event.trans b.event⟩
  rw [b.claims, a.claims, List.map_map]
  refine List.map_congr_left fun c _ => ?_
  rw [Function.comp_apply]
  by_cases hx : c.state.isOvertime = true ∧ c.resource = x
  · have first : s.yieldClaim [x] c = s.yieldClaim (x :: xs) c := by simp [State.yieldClaim, hx.1, hx.2]
    rw [State.yieldClaim_other, first]
    refine .inl ?_
    rw [State.yieldClaim, if_pos ⟨hx.1, by simp [hx.2]⟩]
    rfl
  · have first : s.yieldClaim [x] c = c := if_neg fun e => hx ⟨e.1, List.mem_singleton.mp e.2⟩
    rw [first, State.yieldClaim, State.yieldClaim, a.graceOf, a.event.outside.now]
    by_cases ho : c.state.isOvertime = true
    · have : c.resource ≠ x := fun e => hx ⟨ho, e⟩
      simp [ho, this]
    · simp [ho]

theorem State.foldl_beginYield_yields (xs : List ResNo) (s : State) (hg : ∀ x ∈ xs, s.YieldsGently x) :
    s.Yields (xs.foldl (fun s x => s.beginYield x fun _ => true) s) xs := by
  induction xs generalizing s with
  | nil =>
    refine ⟨?_, rfl, rfl, rfl, .refl s⟩
    exact ((List.map_congr_left fun c _ => State.yieldClaim_other (.inr (by simp))).trans (List.map_id s.claims)).symm
  | cons x xs ih =>
    have first := State.beginYield_yields (hg x (.head _))
    exact first.trans (ih _ fun y hy => first.gently (hg y (.tail _ hy)))

/-! ### Their notices -/

theorem State.HasNotice.foldl_notify {α : Type} {f : α → Port} {g : α → Notice} {q : Port} {n : Notice} (as : List α)
    (hk : ∀ a ∈ as, (g a).key ≠ n.key) {s : State} (hn : s.HasNotice q n) :
    (as.foldl (fun s a => s.notify (f a) (g a)) s).HasNotice q n := by
  induction as generalizing s with
  | nil => exact hn
  | cons a as ih => exact ih (fun b hb => hk b (.tail _ hb)) (hn.notify (f a) (g a) fun _ => hk a (.head _))

/-- A notice about another resource stays while a resource's holdings begin yielding (R132). -/
theorem State.HasNotice.beginYield {q : Port} {n : Notice} {sel : Claim → Bool} (hn : s.HasNotice q n)
    (hk : n.key ≠ .resource x) : (s.beginYield x sel).HasNotice q n := by
  have key : ∀ m : Notice, m.key = .resource x → m.key ≠ n.key := fun m hm e => hk (e ▸ hm)
  unfold State.beginYield
  dsimp only
  split
  · exact hn
  · split
    · exact State.HasNotice.foldl_notify _ (fun _ _ => key _ rfl) (hn.congr (by simp [State.queue, State.removeClaims_queues]))
    · exact State.HasNotice.foldl_notify _ (fun _ _ => key _ rfl) (hn.congr rfl)

theorem State.HasNotice.foldl_beginYield {q : Port} {n : Notice} {sel : Claim → Bool} (xs : List ResNo)
    (hk : ∀ x ∈ xs, n.key ≠ .resource x) {s : State} (hn : s.HasNotice q n) :
    (xs.foldl (fun s x => s.beginYield x sel) s).HasNotice q n := by
  induction xs generalizing s with
  | nil => exact hn
  | cons x xs ih => exact ih (fun y hy => hk y (.tail _ hy)) (hn.beginYield (hk x (.head _)))

/-- A holding that begins yielding has its YIELD notice, where its session is open (R62). -/
theorem State.OneEach.beginYield_hasNotice (one : s.OneEach) (hg : s.YieldsGently x) {c : Claim} (hc : c ∈ s.claims)
    (ho : c.state.isOvertime = true) (hx : c.resource = x) (open_ : s.isOpen c.owner = true) :
    (s.beginYield x fun _ => true).HasNotice c.owner (.yieldDue x (c.state.grant.getD 0) ((s.graceOf x).getD 0)) := by
  obtain ⟨grace, hgrace⟩ := Option.isSome_iff_exists.mp hg.1
  have nonzero : grace ≠ 0 := fun e => by
    refine hg.2.elim (fun h => h (by rw [hgrace, e])) fun none => ?_
    have := none c (State.mem_assigned.mpr ⟨hc, hx, ClaimState.isAssigned_of_isOvertime ho⟩)
    rw [ho] at this; cases this
  have due : c ∈ s.claims.filter fun c => c.resource == x && c.state.isOvertime && true :=
    List.mem_filter.mpr ⟨hc, by simp [hx, ho]⟩
  unfold State.beginYield
  simp only [hgrace, nonzero, if_false, Option.getD_some]
  refine State.foldl_notify_hasNotice (fun c : Claim => c.owner)
    (fun c : Claim => .yieldDue x (c.state.grant.getD 0) grace) due (fun b hb hbo _ => ?_) _ open_
  obtain ⟨hbm, hb⟩ := List.mem_filter.mp hb
  simp only [Bool.and_true, Bool.and_eq_true, beq_iff_eq] at hb
  exact one.eq hbm hc hbo (hb.1.trans hx.symm)

theorem State.OneEach.foldl_beginYield_hasNotice (one : s.OneEach) (hn : xs.Nodup) (hg : ∀ x ∈ xs, s.YieldsGently x) {c : Claim}
    (hc : c ∈ s.claims) (ho : c.state.isOvertime = true) (hx : c.resource ∈ xs) (open_ : s.isOpen c.owner = true) :
    (xs.foldl (fun s x => s.beginYield x fun _ => true) s).HasNotice c.owner
      (.yieldDue c.resource (c.state.grant.getD 0) ((s.graceOf c.resource).getD 0)) := by
  induction xs generalizing s with
  | nil => cases hx
  | cons x xs ih =>
    rw [List.nodup_cons] at hn
    have yields := State.beginYield_yields (hg x (.head _))
    by_cases e : c.resource = x
    · have noticed := one.beginYield_hasNotice (hg x (.head _)) hc ho e open_
      rw [← e] at noticed hn ⊢
      refine noticed.foldl_beginYield xs fun y hy h => hn.1 ?_
      exact NoticeKey.resource.inj (show NoticeKey.resource c.resource = .resource y from h) ▸ hy
    · have claimed : c ∈ (s.beginYield x fun _ => true).claims := by
        rw [yields.claims]
        exact List.mem_map.mpr ⟨c, hc, State.yieldClaim_other (.inr (by simpa using e))⟩
      have noticed := ih (yields.event.oneEach one) hn.2 (fun y hy => yields.gently (hg y (.tail _ hy))) claimed
        ((List.mem_cons.mp hx).resolve_left e) ((yields.event.outside.isOpen _).trans open_)
      rw [yields.graceOf] at noticed
      exact noticed

/-! ### The acceptance of a CLAIM of held resources -/

/-- The claims filed do not yield. -/
theorem State.filedState_map_yieldClaim
    (filed : s.Files (s.filedState p h f) p h (s.filing p f) (s.waitTimer (f.word 1))) (xs : List ResNo) :
    (s.filedState p h f).claims.map ((s.filedState p h f).yieldClaim xs) =
      s.claims.map (s.yieldClaim xs) ++ f.items.map (Item.filed p h) := by
  rw [filed.claims, List.map_append, List.map_map]
  refine congrArg₂ _ rfl (List.map_congr_left fun i _ => ?_)
  exact State.yieldClaim_other (.inl rfl)

theorem State.filedState_gently
    (filed : s.Files (s.filedState p h f) p h (s.filing p f) (s.waitTimer (f.word 1)))
    (gently : ∀ i ∈ f.items, s.YieldsGently i.resource) :
    ∀ x ∈ f.items.map (fun i => i.resource), (s.filedState p h f).YieldsGently x := fun x hx => by
  obtain ⟨i, hi, rfl⟩ := List.mem_map.mp hx
  refine ⟨(gently i hi).1, (gently i hi).2.imp id fun none c hc => none c ?_⟩
  rwa [filed.assigned] at hc

/-- A CLAIM of resources held EXCLUSIVE is filed, the OVERTIME holdings begin yielding, and nothing moves up (R30). -/
theorem State.acceptEvent_held
    (filed : s.Files (s.filedState p h f) p h (s.filing p f) (s.waitTimer (f.word 1)))
    (gently : ∀ i ∈ f.items, s.YieldsGently i.resource)
    (held : ∀ i ∈ f.items, ∃ a ∈ s.assigned i.resource, a.mode = .exclusive) : s.acceptEvent p h f =
      (f.items.map fun i => i.resource).foldl (fun s x => s.beginYield x fun _ => true) (s.filedState p h f) := by
  have yields := State.foldl_beginYield_yields _ _ (State.filedState_gently filed gently)
  refine State.evaluateFor_idle _ _ _ _ fun x hx q k e => ?_
  obtain ⟨i, hi, rfl⟩ := List.mem_map.mp (((placeAll_mem _ _ x).mp hx).resolve_right (by simp))
  obtain ⟨a, ha, hm⟩ := held i hi
  obtain ⟨hac, har, haa⟩ := State.mem_assigned.mp ha
  refine State.not_ready_of_exclusive (State.mem_assigned.mpr ⟨yields.claims ▸ List.mem_map_of_mem (filed.mem.mpr (.inl hac)),
    (Claim.key_resource (State.yieldClaim_key _ _ a)).trans har, (State.yieldClaim_assigned _ _ a).trans haa⟩)
    ((State.yieldClaim_mode _ _ a).trans hm) q k e
end

end Sys2Proof.Machine
end

section
/-! ## A CLAIM that waits, and one that is reserved -/

namespace Sys2Proof.Machine

/-- The acceptance of a CLAIM of held resources, up to the end of its event (R30, R32, R46, R62). -/
structure State.Queued (s u : State) (p : Port) (h : Handle) (f : Frame) : Prop where
  claims : u.claims = s.claims.map (s.yieldClaim (f.items.map fun i => i.resource)) ++ f.items.map (Item.filed p h)
  slot : ∀ q k, u.slot q k = if p = q ∧ h = k then .waiting (s.filing p f) (s.waitTimer (f.word 1)) else s.slot q k
  notices : s.OneEach → ∀ c ∈ s.claims, c.state.isOvertime = true → c.resource ∈ f.items.map (fun i => i.resource) →
    s.isOpen c.owner = true → u.HasNotice c.owner
      (.yieldDue c.resource (c.state.grant.getD 0) ((s.graceOf c.resource).getD 0))
  resources : u.resources = s.resources
  lineReports : u.lineReports = s.lineReports
  outside : (s.taking .claim p f).SameOutsideClaimTable u

/-- The acceptance of a CLAIM of free resources with a LINE item, up to the end of its event (R31, R38, R84, R85). -/
structure State.ReservedWhole (s u : State) (p : Port) (h : Handle) (f : Frame) : Prop where
  claims : u.claims = s.claims ++ f.items.map fun i =>
    { owner := p, resource := i.resource, mode := i.mode, state := .reserved h }
  slot : ∀ q k, u.slot q k =
    if p = q ∧ h = k then .assembling (s.filing p f) ((f.items.map fun i => i.resource).filter s.isLineRes) else s.slot q k
  queues : u.queues = s.queues
  resource : ∀ x, u.resource x = if x ∈ f.items.map (fun i => i.resource) then
    (s.resource x).map fun r => { r with kind := s.begunKind p r.kind } else s.resource x
  reports : ∀ i ∈ f.items, ∀ d lu, s.kindOf i.resource = some (.line d .vacant lu) → d.confirm = none →
    { resource := i.resource, kind := .engagedSeen, current := true } ∈ u.lineReports
  outside : (s.taking .claim p f).SameOutsideClaimTable u

section
variable {s : State} {p : Port} {h : Handle} {f : Frame}

theorem State.Acceptable.queued (a : s.Acceptable p h f) (gently : ∀ i ∈ f.items, s.YieldsGently i.resource)
    (held : ∀ i ∈ f.items, ∃ a ∈ s.assigned i.resource, a.mode = .exclusive) :
    s.Queued ((s.taking .claim p f).acceptEvent p h f) p h f := by
  have filed := a.files
  have gently : ∀ i ∈ f.items, (s.taking .claim p f).YieldsGently i.resource := fun i hi => by
    rw [State.YieldsGently, State.taking_graceOf, State.taking_assigned]
    exact gently i hi
  have yields := State.foldl_beginYield_yields _ _ (State.filedState_gently filed gently)
  rw [State.acceptEvent_held filed gently (by simpa using held)]
  refine ⟨?_, fun q k => ?_, fun one c hc ho hx open_ => ?_, ?_, ?_, (State.filedState_outside _ p h f).trans yields.event.outside⟩
  · rw [yields.claims, State.filedState_map_yieldClaim filed, State.taking_claims, State.taking_yieldClaim]
  · have same := filed.slot q k
    rw [State.taking_filing, State.taking_waitTimer, State.taking_slot] at same
    rw [State.slot, yields.slots]
    exact same
  · have one : (s.taking .claim p f).OneEach := by rw [State.OneEach, State.taking_claims]; exact one
    have pool : (s.taking .claim p f).PoolLaw := ⟨le_trans (Nat.le_add_right _ _) filed.room, one⟩
    have noticed := State.OneEach.foldl_beginYield_hasNotice (s := (s.taking .claim p f).filedState p h f)
      (filed.poolLaw pool).oneEach a.distinct (State.filedState_gently filed gently) (filed.mem.mpr (.inl (by simpa using hc)))
      ho hx ((State.taking_isOpen s .claim p f c.owner).trans open_)
    have grace : ((s.taking .claim p f).filedState p h f).graceOf c.resource = s.graceOf c.resource :=
      State.taking_graceOf s .claim p f c.resource
    rwa [grace] at noticed
  · exact yields.resources.trans (State.taking_resources s .claim p f)
  · exact yields.lineReports.trans (State.taking_lineReports s .claim p f)

theorem State.Acceptable.reservedWhole (a : s.Acceptable p h f) (law : s.TableLaw) (live : s.isLive p = true)
    (free : ∀ i ∈ f.items, s.FreeFor i) (line : ∃ i ∈ f.items, s.isLineRes i.resource = true) :
    s.ReservedWhole ((s.taking .claim p f).acceptEvent p h f) p h f := by
  have filed := a.files
  have law := (s.taking_sameTable .claim p f).tableLaw law
  have event := State.acceptEvent_lines filed law (by simpa using live) (fun i hi => (free i hi).taking .claim)
    (by simpa [State.taking_isLineRes] using line)
  rw [event]
  refine ⟨?_, fun q k => ?_, ?_, fun x => ?_, fun i hi d lu hk hc => ?_,
    (State.filedState_outside _ p h f).trans (State.reserved_outside _ p h _)⟩
  · rw [State.reserved_claims]
    refine (filed.map_own law fun c => { c with state := .reserved h }).trans ?_
    rw [State.taking_claims]
    rfl
  · rw [State.reserved_slot_eq, State.taking_filing]
    split
    · exact congrArg (fun l => Slot.assembling (s.filing p f) ((f.items.map fun i => i.resource).filter l))
        (State.taking_isLineRes s .claim p f)
    · next e => rw [filed.slot, if_neg e, State.taking_slot]
  · rw [State.reserved_queues]
    exact State.taking_queues s .claim p f
  · have same : ((s.taking .claim p f).filedState p h f).resource x = s.resource x := State.taking_resource s .claim p f x
    have kind : ∀ k, ((s.taking .claim p f).filedState p h f).begunKind p k = s.begunKind p k := fun k =>
      State.begunKind_congr (State.taking_now s .claim p f) (State.taking_confirmInputs s .claim p f) p k
    rw [State.reserved_resource a.distinct, same]
    simp only [kind]
    rfl
  · exact State.foldl_beginItem_reports _ a.distinct (List.mem_map_of_mem hi)
      (((s.taking .claim p f).filedState p h f).setClaims _) ((State.taking_kindOf s .claim p f i.resource).trans hk) hc
end

/-- Settles O25: behind EXCLUSIVE holders nothing moves up after the filing; free resources with a LINE item are reserved. -/
theorem claimsQueueBehindHolders : Obligations.ClaimsQueueBehindHolders := by
  refine ⟨fun p h f s hof hopen hmode hh h1 h4 hcount hbytes hn hfree hroom hitems => ?_,
    fun p h f s law hof hlive hinc hmode hh h1 h4 hcount hbytes hn hfree hroom hitems hline => ?_⟩
  · simp only [imp_and, forall_and] at hitems
    obtain ⟨hkind, hheld, hown, hrevoked, hgrace⟩ := hitems
    have acceptable : s.Acceptable p h f :=
      ⟨hof, hopen, hmode, hh, h1, h4, hcount, hbytes, hn, hfree, hroom, hkind, hown, hrevoked⟩
    have gently : ∀ i ∈ f.items, s.YieldsGently i.resource := fun i hi => by
      obtain ⟨k, hk, -⟩ := hkind i hi
      obtain ⟨r, hr, -⟩ := State.kindOf_eq_some hk
      exact ⟨by simp [State.graceOf, hr], hgrace i hi⟩
    have queued := acceptable.queued gently hheld
    obtain ⟨hexec, hans⟩ := acceptable.accepted (by rw [queued.slot, if_pos ⟨rfl, rfl⟩]; nofun)
    obtain ⟨hsup, hin, hev, hother⟩ := queued.outside.served .accepted [byteOf h]
    refine ⟨_, hexec, hans, ?_, ?_, fun q k hq => ?_, fun c hc ho hx hq one => ?_, ?_, ?_, hsup, hin, hev, hother⟩
    · rw [State.place_claims, State.endOfEvent_claims, queued.claims]; rfl
    · rw [State.slot_place, State.endOfEvent_slot, queued.slot, if_pos ⟨rfl, rfl⟩]; rfl
    · rw [State.slot_place, State.endOfEvent_slot, queued.slot, if_neg fun e => hq ⟨e.1.symm, e.2.symm⟩]
    · exact (queued.notices one c hc ho hx hq).congr (by rw [State.queue_place, State.endOfEvent_queue])
    · rw [State.place_resources, State.endOfEvent_resources, queued.resources]
    · rw [State.place_lineReports, State.endOfEvent_lineReports, queued.lineReports]
  · simp only [imp_and, forall_and] at hitems
    obtain ⟨hwait, hrevoked, hexcl, ⟨hshared, hintime, howner⟩, hkind⟩ := hitems
    have kinds : ∀ i ∈ f.items, ∃ k, s.kindOf i.resource = some k ∧ k.isFaulted = false
        ∧ (i.mode = .shared → k.isShareable = true) ∧ k.takesExclusive = true := fun i hi => by
      obtain ⟨sh, st, hk, hst⟩ | ⟨hm, d, st, lu, hk, hst⟩ := hkind i hi
      · exact ⟨_, hk, Kind.free_cases (.inl ⟨sh, st, rfl, hst⟩)⟩
      · exact ⟨_, hk, Kind.free_cases (.inr ⟨hm, d, st, lu, rfl, hst⟩)⟩
    have acceptable : s.Acceptable p h f := ⟨hof, ⟨State.isOpen_of_isLive hlive, hinc⟩, hmode, hh, h1, h4, hcount, hbytes, hn,
      hfree, hroom, fun i hi => (kinds i hi).imp fun k ⟨hk, hf, hsh, _⟩ => ⟨hk, hf, hsh⟩,
      fun i hi => State.unclaimed_of (hwait i hi) (howner i hi), hrevoked⟩
    have free : ∀ i ∈ f.items, s.FreeFor i := fun i hi =>
      ⟨hwait i hi, (kinds i hi).imp fun k ⟨hk, hf, _, ht⟩ => ⟨hk, hf, fun _ => ht⟩, hexcl i hi, hshared i hi, hintime i hi⟩
    have reserved := acceptable.reservedWhole law hlive free hline
    obtain ⟨hexec, hans⟩ := acceptable.accepted (by rw [reserved.slot, if_pos ⟨rfl, rfl⟩]; nofun)
    obtain ⟨hsup, hin, hev, hother⟩ := reserved.outside.served .accepted [byteOf h]
    refine ⟨_, hexec, hans, ?_, ?_, fun q k hq => ?_, ?_, fun i hi r hr => ?_, fun x hx => ?_, hsup, hin, fun q hq => ?_, hev⟩
    · rw [State.place_claims, State.endOfEvent_claims, reserved.claims]
    · rw [State.slot_place, State.endOfEvent_slot, reserved.slot, if_pos ⟨rfl, rfl⟩]; rfl
    · rw [State.slot_place, State.endOfEvent_slot, reserved.slot, if_neg fun e => hq ⟨e.1.symm, e.2.symm⟩]
    · rw [State.place_queues, State.endOfEvent_queues, reserved.queues]
    · have begun := reserved.resource i.resource
      rw [if_pos (List.mem_map_of_mem hi), hr, Option.map_some] at begun
      simp only [State.resource_place, State.endOfEvent_resource, State.place_lineReports, State.endOfEvent_lineReports]
      refine ⟨fun sh st hk => ?_, fun d lu hk => ?_, fun d lu hk => ⟨fun hc => ⟨?_, ?_⟩, fun b hc => ⟨fun hl => ?_, fun hl => ?_⟩⟩⟩
      · rw [begun, hk]; rfl
      · rw [begun, hk]; rfl
      · rw [begun, hk]; simp [State.begunKind, hc]
      · exact reserved.reports i hi d lu (by simp [State.kindOf, hr, hk]) hc
      · rw [begun, hk]; simp [State.begunKind, hc, hl]
      · rw [begun, hk]; simp [State.begunKind, hc, hl]
    · rw [State.resource_place, State.endOfEvent_resource, reserved.resource, if_neg hx]
    · obtain ⟨hsession, hport⟩ := hother q hq
      exact ⟨hsession, by rw [State.queue, State.place_queues, State.endOfEvent_queues, reserved.queues]; rfl, hport⟩

end Sys2Proof.Machine
end

section
/-! ## Holdings -/

namespace Sys2Proof.Machine

section
variable {s : State} {k : RequestKind} {p : Port} {x : ResNo} {f : Frame} {c : Claim} {g : Word16} {ph : HoldPhase}

/-! ### The check of a resource byte -/

/-- A request whose first checks after the session's are those of its resource byte (R1, R191). -/
theorem State.Offered.checksTheResource (hof : s.Offered k p f) {rest : List (Bool × Status)} {go : Verdict}
    (verdict : k.verdict p f (s.taking k p f) = .checked (s.resourceChecks (f.byte 0) ++ rest) go) :
    s.ChecksTheResource k p f := by
  refine ⟨fun big => hof.refused (verdict.trans ?_) nofun, fun y hy undef => hof.refused (verdict.trans ?_) nofun⟩
  · exact Verdict.checked_append_some (by simp [State.resourceChecks, firstRefusal, big])
  · have inRange : ¬ 63 < (f.byte 0).toNat := by omega
    exact Verdict.checked_append_some (by simp [State.resourceChecks, firstRefusal, inRange, resOf_eq hy, undef])

/-- The byte of a defined resource passes its checks (R1). -/
theorem State.resourceChecks_passed (hx : (f.byte 0).toNat = x.val) (hd : (s.resource x).isSome = true) :
    firstRefusal (s.resourceChecks (f.byte 0)) = none := by
  have inRange : ¬ 63 < (f.byte 0).toNat := by omega
  obtain ⟨r, hr⟩ := Option.isSome_iff_exists.mp hd
  simp [State.resourceChecks, firstRefusal, inRange, resOf_eq hx, hr]

/-! ### The holding of a port -/

/-- The claim that a lookup finds is the port's on the resource (R22). -/
theorem State.mem_of_claimOn (hc : s.claimOn p x = some c) : c ∈ s.claims ∧ c.owner = p ∧ c.resource = x := by
  have named := List.find?_some hc
  simp only [Bool.and_eq_true, beq_iff_eq] at named
  exact ⟨List.mem_of_find?_eq_some hc, named⟩

theorem State.assigned_of_claimOn (hc : s.claimOn p x = some c) (hs : c.state = .held g ph) : c ∈ s.assigned x := by
  obtain ⟨hm, -, hx⟩ := State.mem_of_claimOn hc
  exact State.mem_assigned.mpr ⟨hm, hx, by rw [hs]; rfl⟩

theorem State.heldGrant_of_claimOn (hc : s.claimOn p x = some c) (hs : c.state = .held g ph) : s.heldGrant p x = some g := by
  simp [State.heldGrant, hc, hs, ClaimState.grant]

theorem State.heldGrant_none (h : ∀ c, s.claimOn p x = some c → c.state.isHeld = false) : s.heldGrant p x = none := by
  cases hc : s.claimOn p x with
  | none => simp [State.heldGrant, hc]
  | some c =>
    have unheld := h c hc
    cases hs : c.state with
    | waiting | reserved => simp [State.heldGrant, hc, hs, ClaimState.grant]
    | held => rw [hs] at unheld; cases unheld

theorem Claim.isHolding_iff : Claim.isHolding p x c = true ↔ c.owner = p ∧ c.resource = x ∧ c.state.isHeld = true := by
  simp [Claim.isHolding, and_assoc]

theorem State.holdPhase_of_claimOn (hc : s.claimOn p x = some c) (hs : c.state = .held g ph) : s.holdPhase p x = some ph := by
  simp [State.holdPhase, hc, hs]

/-- R22: claims chosen by the port and the resource of one are that one. -/
theorem State.OneEach.filter_eq_singleton (one : s.OneEach) (hc : c ∈ s.claims) {sel : Claim → Bool} (hsel : sel c = true)
    (own : ∀ d, sel d = true → d.owner = c.owner ∧ d.resource = c.resource) : s.claims.filter sel = [c] :=
  eq_singleton_of_nodup (one.nodup.filter _) (List.mem_filter.mpr ⟨hc, hsel⟩) fun d hd => by
    obtain ⟨hm, hd⟩ := List.mem_filter.mp hd
    exact one.eq hm hc (own d hd).1 (own d hd).2

theorem State.OneEach.filter_not_eq_erase (one : s.OneEach) (hc : c ∈ s.claims) {sel : Claim → Bool} (hsel : sel c = true)
    (own : ∀ d, sel d = true → d.owner = c.owner ∧ d.resource = c.resource) :
    (s.claims.filter fun d => !sel d) = s.claims.erase c := by
  rw [one.nodup.erase_eq_filter c]
  refine List.filter_congr fun d hd => ?_
  by_cases e : d = c
  · simp [e, hsel]
  · have out : sel d = false := by
      by_contra h
      have h : sel d = true := by simpa using h
      exact e (one.eq hd hc (own d h).1 (own d h).2)
    simp [e, out]

/-! ### Removal and revocation -/

theorem State.waitQueue_removeClaims (s : State) (x : ResNo) (sel : Claim → Bool) :
    (s.removeClaims sel).waitQueue x = (s.waitQueue x).filter fun c => !sel c := by
  rw [State.waitQueue, State.removeClaims_claims, State.waitQueue, List.filter_filter, List.filter_filter]
  exact List.filter_congr fun c _ => Bool.and_comm _ _

/-- The holdings of the resource that `sel` chooses. -/
def Claim.heldBy (x : ResNo) (sel : Claim → Bool) (c : Claim) : Bool := c.resource == x && c.state.isHeld && sel c

/-- The revocation of one holding is its removal with its notice (R64). -/
theorem State.OneEach.revoke_one (one : s.OneEach) (hc : c ∈ s.assigned x) (hs : c.state = .held g ph) {sel : Claim → Bool}
    (hsel : sel c = true) (own : ∀ d, sel d = true → d.owner = c.owner) (reason : RevokeReason) :
    s.revoke x reason sel = (s.removeClaims (Claim.heldBy x sel)).notify c.owner (.revoked x g reason) := by
  obtain ⟨hm, hx, -⟩ := State.mem_assigned.mp hc
  have hit : s.claims.filter (Claim.heldBy x sel) = [c] :=
    one.filter_eq_singleton hm (by simp [Claim.heldBy, hx, hs, ClaimState.isHeld, hsel]) fun d hd => by
      simp only [Claim.heldBy, Bool.and_eq_true, beq_iff_eq] at hd
      exact ⟨own d hd.2, hd.1.1.trans hx.symm⟩
  have grant : c.state.grant.getD 0 = g := by rw [hs]; rfl
  calc s.revoke x reason sel
      = (s.claims.filter (Claim.heldBy x sel)).foldl
          (fun s c => s.notify c.owner (.revoked x (c.state.grant.getD 0) reason)) (s.removeClaims (Claim.heldBy x sel)) := rfl
    _ = (s.removeClaims (Claim.heldBy x sel)).notify c.owner (.revoked x g reason) := by
      rw [hit, List.foldl_cons, List.foldl_nil, grant]

/-- A revoked holding has gone, and its notice is there, whatever an evaluation does then (R64). -/
theorem State.OneEach.revoke_evaluate (one : s.OneEach) (hc : c ∈ s.assigned x) (hs : c.state = .held g ph)
    {sel : Claim → Bool} (hsel : sel c = true) (reason : RevokeReason) (xs : List ResNo) :
    let u := (s.revoke x reason sel).evaluate xs
    s.TableEvent u ∧ (∀ d ∈ u.claims, ¬ (d.owner = c.owner ∧ d.resource = x))
      ∧ (s.isOpen c.owner = true → u.HasNotice c.owner (.revoked x g reason)) := by
  intro u
  have noticed := one.revoke_hasNotice reason hc hs hsel
  obtain ⟨hm, rfl, -⟩ := State.mem_assigned.mp hc
  exact ⟨(s.revoke_tableEvent _ reason sel).trans (State.evaluate_tableEvent _ xs),
    one.gone (fun _ => State.revoke_fewer _) (State.evaluate_proceeds _ xs) hm (State.revoke_held rfl (by rw [hs]; rfl) hsel),
    fun ho => (noticed ho).evaluateWith none _ xs nofun⟩
end

end Sys2Proof.Machine
end

section
/-! ## RELEASE -/

namespace Sys2Proof.Machine

section
variable {s : State} {p : Port} {x : ResNo} {f : Frame} {c : Claim} {ph : HoldPhase}

/-- The checks of a RELEASE after its session check (R57, R58). -/
theorem State.OpenFor.release_verdict (ho : s.OpenFor p f) : RequestKind.release.verdict p f (s.taking .release p f) =
    .checked (s.resourceChecks (f.byte 0) ++
        [((s.heldGrant p (resOf (f.byte 0))).isNone, .notHeld),
         (s.heldGrant p (resOf (f.byte 0)) != some (f.word 1), .staleGrant)])
      (.executed .ok [] ((s.taking .release p f).removeAndEvaluate (Claim.isHolding p (resOf (f.byte 0))))) := by
  show releaseVerdict p f (s.taking .release p f) = _
  rw [releaseVerdict, List.append_assoc, Verdict.checked_append (State.sessionChecks_open ho.taking)]
  simp [State.resourceChecks, State.heldGrant]

/-- A RELEASE of a defined resource, by the port's holding of it (R57, R58). -/
theorem State.OpenFor.release_defined (ho : s.OpenFor p f) (hx : (f.byte 0).toNat = x.val)
    (hd : (s.resource x).isSome = true) : RequestKind.release.verdict p f (s.taking .release p f) =
    if s.heldGrant p x = none then .refused .notHeld
    else if s.heldGrant p x ≠ some (f.word 1) then .refused .staleGrant
    else .executed .ok [] ((s.taking .release p f).removeAndEvaluate (Claim.isHolding p x)) := by
  rw [ho.release_verdict, Verdict.checked_append (State.resourceChecks_passed hx hd), resOf_eq hx]
  simp

/-- A RELEASE that names a holding by its grant number is executed (R58). -/
theorem State.Offered.release_executed (hof : s.Offered .release p f) (ho : s.OpenFor p f) (hx : (f.byte 0).toNat = x.val)
    (hd : (s.resource x).isSome = true) (hc : s.claimOn p x = some c) (hs : c.state = .held (f.word 1) ph) :
    let u := ((s.taking .release p f).removeAndEvaluate (Claim.isHolding p x)).endOfEvent.place p f .ok [] true
    exec (.release p) s = .next u ∧ s.Answered u p f .ok [] := by
  have verdict := ho.release_defined hx hd
  rw [State.heldGrant_of_claimOn hc hs, if_neg (by simp), if_neg (by simp)] at verdict
  obtain ⟨hexec, hans, -⟩ := hof.executed verdict
  exact ⟨hexec, hans⟩

theorem State.removeAndEvaluate_tableEvent (s : State) (sel : Claim → Bool) : s.TableEvent (s.removeAndEvaluate sel) :=
  (s.removeClaims_tableEvent sel).trans (State.evaluate_tableEvent _ _)

/-- A released holding leaves its port without a claim on the resource (R22, R58). -/
theorem State.OneEach.release_gone (one : s.OneEach) (hc : s.claimOn p x = some c) (hh : c.state.isHeld = true) :
    ∀ d ∈ (s.removeAndEvaluate (Claim.isHolding p x)).claims, ¬ (d.owner = p ∧ d.resource = x) := by
  obtain ⟨hm, rfl, rfl⟩ := State.mem_of_claimOn hc
  refine one.gone (w := s.removeClaims (Claim.isHolding c.owner c.resource)) (fun d hd => ?_)
    (State.evaluate_proceeds _ (s.losers (Claim.isHolding c.owner c.resource))) hm fun hc => ?_
  · rw [State.removeClaims_claims] at hd
    exact (List.mem_filter.mp hd).1
  · rw [State.removeClaims_claims, List.mem_filter, Claim.isHolding_iff.mpr ⟨rfl, rfl, hh⟩] at hc
    cases hc.2

/-- Where nobody waits for the resource, nothing moves up behind the RELEASE (R37). -/
theorem State.release_alone (hw : s.waitQueue x = []) :
    s.removeAndEvaluate (Claim.isHolding p x) = s.removeClaims (Claim.isHolding p x) := by
  refine State.evaluate_nothing_waits _ _ fun y hy => ?_
  obtain ⟨d, hd, rfl⟩ := List.mem_map.mp hy
  obtain ⟨-, hdx, -⟩ := Claim.isHolding_iff.mp (List.mem_filter.mp hd).2
  rw [State.waitQueue_removeClaims, hdx, hw]
  rfl
end

/-- Settles O29: the checks in their order, and the removal that no evaluation undoes. -/
theorem releaseNamesOneHolding : Obligations.ReleaseNamesOneHolding := by
  refine ⟨fun p f s hof ho => hof.checksTheResource ho.release_verdict, ?_⟩
  intro p x f s hof ho hx hd t
  have verdict := ho.release_defined hx hd
  refine ⟨fun c g ph hc hs => ⟨fun hne => ?_, ?_⟩, fun unheld => ?_⟩
  · rw [State.heldGrant_of_claimOn hc hs, if_neg (by simp), if_pos (by simpa using hne)] at verdict
    exact hof.refused verdict nofun
  · rintro rfl
    obtain ⟨hexec, hans⟩ := hof.release_executed ho hx hd hc hs
    have event := (s.taking .release p f).removeAndEvaluate_tableEvent (Claim.isHolding p x)
    obtain ⟨hsup, hin, hev, hother⟩ := event.outside.served .ok []
    refine ⟨_, hexec, hans, fun pool d hd => ?_, fun q k => ?_, hsup, hin, hev, hother⟩
    · rw [State.place_claims, State.endOfEvent_claims] at hd
      have one : (s.taking .release p f).OneEach := by rw [State.OneEach, State.taking_claims]; exact pool.oneEach
      exact one.release_gone (by simpa using hc) (by rw [hs]; rfl) d hd
    · rw [State.slot_place, State.endOfEvent_slot]
      simpa using event.slots q k
  · rw [if_pos (State.heldGrant_none unheld)] at verdict
    exact hof.refused verdict nofun

/-- Settles O30: the removal settles the resource, and nothing moves up behind it. -/
theorem releaseWithoutWaiters : Obligations.ReleaseWithoutWaiters := by
  intro p x f c ph r s hof ho hx hr hc hs hw
  obtain ⟨hexec, hans⟩ := hof.release_executed ho hx (by rw [hr]; rfl) hc hs
  rw [State.release_alone (s := s.taking .release p f) (by simpa using hw)] at hexec hans
  obtain ⟨hsup, hin, hev, hother⟩ :=
    ((s.taking .release p f).removeClaims_tableEvent (Claim.isHolding p x)).outside.served .ok []
  have released : ∃ d ∈ (s.taking .release p f).assigned x, Claim.isHolding p x d = true := by
    obtain ⟨-, hp, hcx⟩ := State.mem_of_claimOn hc
    exact ⟨c, by simpa using State.assigned_of_claimOn hc hs, Claim.isHolding_iff.mpr ⟨hp, hcx, by rw [hs]; rfl⟩⟩
  obtain ⟨token, -, -, line⟩ := ((s.taking .release p f).removeClaims_unwound x (Claim.isHolding p x) (by simpa using hr)
    released).congr (s' := s) (by simp) (by simp)
    (u' := ((s.taking .release p f).removeClaims (Claim.isHolding p x)).endOfEvent.place p f .ok [] true)
    (by simp) (by simp) (by simp)
  refine ⟨_, hexec, hans, ?_, ?_, ?_, token, fun d lu hk => line d .held lu hk (.inr rfl), fun y hy => ?_, hsup, hin,
    fun q hq => ?_, hev⟩
  · rw [State.place_claims, State.endOfEvent_claims, State.removeClaims_claims, State.taking_claims]
  · rw [State.place_slots, State.endOfEvent_slots, State.removeClaims_slots, State.taking_slots]
  · rw [State.place_queues, State.endOfEvent_queues, State.removeClaims_queues, State.taking_queues]
  · rw [State.resource_place, State.endOfEvent_resource, State.removeClaims_resource_other, State.taking_resource]
    intro d hd
    have elsewhere : d.resource ≠ x := by rw [(State.mem_assigned.mp hd).2.1]; exact hy
    simp [Claim.isHolding, elsewhere]
  · obtain ⟨hsession, hport⟩ := hother q hq
    refine ⟨hsession, ?_, hport⟩
    rw [State.queue, State.place_queues, State.endOfEvent_queues, State.removeClaims_queues, State.taking_queues]
    rfl

end Sys2Proof.Machine
end

section
/-! ## DISABLE -/

namespace Sys2Proof.Machine

section
variable {s : State} {p : Port} {x : ResNo} {f : Frame} {c : Claim} {h : Handle}

/-- DISABLE before its evaluation: the resource FAULTED, its holdings revoked and the requests that name it failed (R70). -/
def State.disableTaken (s : State) (x : ResNo) : State :=
  ((s.faultResource x .disabled).revoke x .disabled fun _ => true).failAll (s.requestsWith (Claim.requestOn x)) x .disabled

theorem State.disableEvent_eq (s : State) (x : ResNo) : s.disableEvent x =
    (s.disableTaken x).evaluate (x :: s.itemsOfAll (s.requestsWith (Claim.requestOn x))) := rfl

theorem State.TableLaw.disableTaken (law : s.TableLaw) (x : ResNo) : (s.disableTaken x).TableLaw :=
  (((s.faultResource_proceeds x .disabled).trans (State.revoke_proceeds _ x _ _)).trans
    (State.failAll_proceeds _ x _ _)).advances.law law

/-- A request that names a resource is among those that fail with it, and it is open (R23). -/
theorem State.TableLaw.request_fails (law : s.TableLaw) (hc : c ∈ s.claims) (hx : c.resource = x)
    (hs : c.state.handle = some h) :
    (c.owner, h) ∈ s.requestsWith (Claim.requestOn x) ∧ (s.slot c.owner h).isOpen = true :=
  ⟨State.mem_requestsWith.mpr ⟨c, hc, by simp [Claim.requestOn, hx, hs], rfl, hs⟩, (law.backed c hc h hs).isOpen⟩

theorem State.slot_faultRevoke (s : State) (x : ResNo) (q : Port) (k : Handle) :
    ((s.faultResource x .disabled).revoke x .disabled fun _ => true).slot q k = s.slot q k := by
  rw [State.slot, State.revoke_slots, (s.faultResource_lineOrder x .disabled).slots]
  rfl

/-- No claim on the resource is left (R70). -/
theorem State.TableLaw.disableTaken_unclaimed (law : s.TableLaw) : ∀ c ∈ (s.disableTaken x).claims, c.resource ≠ x := by
  intro c hc hx
  have hr := (State.failAll_claims_sublist x .disabled _ _).subset hc
  have hm : c ∈ s.claims := (s.faultResource_lineOrder x .disabled).claims ▸ State.revoke_fewer c hr
  cases hs : c.state.handle with
  | none =>
    refine State.revoke_held hx ?_ rfl hr
    cases hcs : c.state with
    | held => rfl
    | waiting | reserved => rw [hcs] at hs; cases hs
  | some k =>
    obtain ⟨hreq, hopen⟩ := law.request_fails hm hx hs
    have none := State.failAll_noRequest x .disabled _ _ c.owner k hreq (by rw [State.slot_faultRevoke]; exact hopen) c hc
    rw [Claim.ofRequest_iff.mpr ⟨rfl, hs⟩] at none
    cases none

theorem State.TableLaw.disableEvent_unclaimed (law : s.TableLaw) : ∀ c ∈ (s.disableEvent x).claims, c.resource ≠ x :=
  ((law.disableTaken x).evaluateWith_unclaimed none _ law.disableTaken_unclaimed).1

/-- The fault of the resource stands through the removals and the evaluation (R44, R70). -/
theorem State.TableLaw.disableEvent_kindOf (law : s.TableLaw) {k : Kind}
    (hk : (s.faultResource x .disabled).kindOf x = some k) (hf : k.isFaulted = true) : (s.disableEvent x).kindOf x = some k :=
  (law.disableTaken x).evaluateWith_faulted none _
    (State.failAll_faulted x .disabled _ _ x k (State.revoke_faulted .disabled _ hk hf) hf) hf

theorem State.kindOf_faultResource_token {sh : Bool} {st : TokenState} (hk : s.kindOf x = some (.token sh st))
    (reason : FaultReason) : (s.faultResource x reason).kindOf x = some (.token sh .faulted) := by
  unfold State.faultResource
  rw [hk]
  exact State.kindOf_setKind s x _ _ hk

theorem State.OneEach.disableEvent_revoked (one : s.OneEach) (hc : c ∈ s.claims) (hx : c.resource = x) {g : Word16}
    {ph : HoldPhase} (hs : c.state = .held g ph) (ho : s.isOpen c.owner = true) :
    (s.disableEvent x).HasNotice c.owner (.revoked x g .disabled) := by
  have fault := s.faultResource_lineOrder x .disabled
  have one : (s.faultResource x .disabled).OneEach := by rw [State.OneEach, fault.claims]; exact one
  have assigned : c ∈ (s.faultResource x .disabled).assigned x := by
    rw [State.assigned_faultResource]
    exact State.mem_assigned.mpr ⟨hc, hx, by rw [hs]; rfl⟩
  have revoked := one.revoke_hasNotice .disabled (sel := fun _ => true) assigned hs rfl
    ((fault.outside.isOpen c.owner).trans ho)
  exact (revoked.failAll x .disabled (s.requestsWith (Claim.requestOn x)) fun r _ _ => nofun).evaluateWith none _ _ nofun

theorem State.TableLaw.disableEvent_failed (law : s.TableLaw) (hc : c ∈ s.claims) (hx : c.resource = x)
    (hs : c.state.handle = some h) : let u := s.disableEvent x
    (∃ i, u.slot c.owner h = .done i .failed) ∧ (s.isOpen c.owner = true → u.HasNotice c.owner (.failed h x .disabled)) := by
  obtain ⟨hreq, hopen⟩ := law.request_fails hc hx hs
  obtain ⟨hdone, -, hnotice⟩ := State.failed_evaluate (s := (s.faultResource x .disabled).revoke x .disabled fun _ => true)
    (x := x) .disabled hreq (by rw [State.slot_faultRevoke]; exact hopen)
    (x :: s.itemsOfAll (s.requestsWith (Claim.requestOn x)))
  refine ⟨hdone, fun ho => hnotice ?_⟩
  rw [(State.revoke_tableEvent _ x _ _).outside.isOpen, (s.faultResource_tableEvent x _).outside.isOpen]
  exact ho

/-- The checks of a DISABLE after its session and permission checks (R69). -/
theorem State.OpenFor.disable_verdict (ho : s.OpenFor p f) (hp : p = s.supervisor) :
    RequestKind.disable.verdict p f (s.taking .disable p f) = .checked (s.resourceChecks (f.byte 0) ++ [])
      (.executed .ok [] ((s.taking .disable p f).disableEvent (resOf (f.byte 0)))) := by
  show disableVerdict p f (s.taking .disable p f) = _
  rw [disableVerdict, Verdict.checked_append (State.supervisorChecks_open ho.taking (by simpa using hp))]
  simp [State.resourceChecks]

theorem State.Offered.disable_executed (hof : s.Offered .disable p f) (ho : s.OpenFor p f) (hp : p = s.supervisor)
    (hx : (f.byte 0).toNat = x.val) (hd : (s.resource x).isSome = true) :
    let u := ((s.taking .disable p f).disableEvent x).endOfEvent.place p f .ok [] true
    exec (.disable p) s = .next u ∧ s.Answered u p f .ok [] := by
  have verdict := ho.disable_verdict hp
  rw [Verdict.checked_append (State.resourceChecks_passed hx hd), Verdict.checked_nil, resOf_eq hx] at verdict
  obtain ⟨hexec, hans, -⟩ := hof.executed verdict
  exact ⟨hexec, hans⟩
end

/-- Settles O39: the fault stands before the removals, which take every claim on the resource and leave it FAULTED. -/
theorem disableFaultsTheResource : Obligations.DisableFaultsTheResource := by
  refine ⟨fun p f s hof ho hp => hof.checksTheResource (ho.disable_verdict hp),
    fun p x f s hof ho hp hx hd pool law => ?_⟩
  obtain ⟨hexec, hans⟩ := hof.disable_executed ho hp hx hd
  have law : (s.taking .disable p f).TableLaw := (s.taking_sameTable .disable p f).tableLaw law
  have one : (s.taking .disable p f).OneEach := by rw [State.OneEach, State.taking_claims]; exact pool.oneEach
  have event := State.disableEvent_tableEvent (s.taking .disable p f) x
  obtain ⟨hsup, hin, hev, hother⟩ := event.outside.served .ok []
  refine ⟨_, hexec, hans, fun c hc => ?_, fun sh st hk => ?_, fun d st lu hk => ?_, fun c hc g ph hcx hs hq => ?_,
    fun c hc h hcx hs => ?_, fun q k hq => ?_, hsup, hin, hev, hother⟩
  · rw [State.place_claims, State.endOfEvent_claims] at hc
    exact law.disableEvent_unclaimed c hc
  · rw [State.kindOf_place, State.endOfEvent_kindOf]
    exact law.disableEvent_kindOf (State.kindOf_faultResource_token (by simpa using hk) .disabled) rfl
  · rw [State.kindOf_place, State.endOfEvent_kindOf]
    exact law.disableEvent_kindOf (State.kindOf_faultResource (by simpa using hk) .disabled) rfl
  · refine (one.disableEvent_revoked (by simpa using hc) hcx hs (by simpa using hq)).congr ?_
    rw [State.queue_place, State.endOfEvent_queue]
  · obtain ⟨hdone, hnotice⟩ := law.disableEvent_failed (by simpa using hc) hcx hs
    refine ⟨by simpa using hdone, fun hq => (hnotice (by simpa using hq)).congr ?_⟩
    rw [State.queue_place, State.endOfEvent_queue]
  · rw [State.slot_place, State.endOfEvent_slot]
    have slots := event.slots q k
    rw [State.taking_slot] at slots
    exact slots.resolve_right fun ho => by rw [ho] at hq; cases hq

end Sys2Proof.Machine
end

section
/-! ## The expiry of hold and grace timers -/

namespace Sys2Proof.Machine

/-- A claim once the holding `c` is in another hold phase. -/
def Claim.rephased (c : Claim) (g : Word16) (ph : HoldPhase) (d : Claim) : Claim :=
  if d = c then { c with state := .held g ph } else d

/-- The state in which the holding `c` is in another hold phase, and all else as before. -/
def State.rephase (s : State) (c : Claim) (g : Word16) (ph : HoldPhase) : State :=
  s.setClaims (s.claims.map (c.rephased g ph))

/-- The OVERTIME holdings of the resource, of those that `sel` chooses (R62). -/
def Claim.dueOn (x : ResNo) (sel : Claim → Bool) (c : Claim) : Bool := c.resource == x && c.state.isOvertime && sel c

/-- What the expiry of a timer at the moment `t` leaves outside the Claim Table (log entry 4). -/
theorem State.SameOutsideClaimTable.expired {s u : State} {t : Time} (o : (s.passTo t).SameOutsideClaimTable u) :
    u.sessions = s.sessions ∧ u.ports = s.ports ∧ s.SameSupervision u ∧ s.SameEvents u :=
  ⟨o.sessions, o.ports, ⟨o.mode, o.supervisor, o.threshold, o.recovery, o.filterTime⟩, ⟨o.ackEvents, o.liveReports⟩⟩

section
variable {s : State} {p : Port} {x : ResNo} {c : Claim} {g : Word16} {ph ph' : HoldPhase} {t : Time}

/-! ### A holding in another hold phase -/

theorem Claim.rephased_key (c : Claim) (g : Word16) (ph : HoldPhase) (d : Claim) : (c.rephased g ph d).key = d.key := by
  unfold Claim.rephased
  split
  · next e => rw [e]; rfl
  · rfl

theorem State.rephase_outside (s : State) (c : Claim) (g : Word16) (ph : HoldPhase) :
    s.SameOutsideClaimTable (s.rephase c g ph) := by
  constructor <;> rfl

theorem State.OneEach.rephase (one : s.OneEach) (c : Claim) (g : Word16) (ph : HoldPhase) : (s.rephase c g ph).OneEach := by
  have keys : (s.rephase c g ph).claims.map Claim.key = s.claims.map Claim.key := by
    rw [State.rephase, State.claims_setClaims, List.map_map]
    exact List.map_congr_left fun d _ => c.rephased_key g ph d
  rw [State.OneEach, keys]
  exact one

theorem State.rephase_mem (hc : c ∈ s.claims) : { c with state := .held g ph } ∈ (s.rephase c g ph).claims :=
  List.mem_map.mpr ⟨c, hc, if_pos rfl⟩

theorem State.waitQueue_rephase (hs : c.state = .held g ph) (ph' : HoldPhase) :
    (s.rephase c g ph').waitQueue x = s.waitQueue x := by
  have waits : ∀ d, (c.rephased g ph' d).state.isWaiting = d.state.isWaiting := fun d => by
    unfold Claim.rephased
    split
    · next e => rw [e, hs]; rfl
    · rfl
  have chosen : (fun d : Claim => d.resource == x && d.state.isWaiting) ∘ c.rephased g ph' =
      fun d => d.resource == x && d.state.isWaiting := funext fun d => by
    have hr : (c.rephased g ph' d).resource = d.resource := Claim.key_resource (c.rephased_key g ph' d)
    simp [waits, hr]
  rw [State.waitQueue, State.rephase, State.claims_setClaims, List.filter_map, chosen, State.waitQueue]
  refine (List.map_congr_left fun d hd => if_neg ?_).trans (List.map_id _)
  rintro rfl
  have := (List.mem_filter.mp hd).2
  simp [hs, ClaimState.isWaiting] at this

/-- A second change of the hold phase takes the place of the first (R22). -/
theorem State.OneEach.rephase_rephase (one : s.OneEach) (hc : c ∈ s.claims) :
    (s.rephase c g ph).rephase { c with state := .held g ph } g ph' = s.rephase c g ph' := by
  have claims : ((s.rephase c g ph).claims.map (Claim.rephased { c with state := .held g ph } g ph')) =
      s.claims.map (c.rephased g ph') := by
    rw [State.rephase, State.claims_setClaims, List.map_map]
    refine List.map_congr_left fun d hd => ?_
    by_cases e : d = c
    · simp [Claim.rephased, e]
    · have other : d ≠ { c with state := .held g ph } := fun e' => e (one.eq hd hc (by rw [e']) (by rw [e']))
      simp [Claim.rephased, e, other]
  exact congrArg s.setClaims claims

/-- R61: OVERTIME is another hold phase of the port's one claim on the resource. -/
theorem State.OneEach.setOvertime_eq (one : s.OneEach) (hc : s.claimOn p x = some c) (hs : c.state = .held g ph) :
    s.setOvertime p x = s.rephase c g .overtime := by
  obtain ⟨hm, rfl, rfl⟩ := State.mem_of_claimOn hc
  refine congrArg s.setClaims (List.map_congr_left fun d hd => ?_)
  by_cases e : d = c
  · subst e
    simp [Claim.rephased, Claim.isHolding, hs, ClaimState.isHeld, ClaimState.grant]
  · have other : ¬ Claim.isHolding c.owner c.resource d = true := fun h =>
      e (one.eq hd hm (Claim.isHolding_iff.mp h).1 (Claim.isHolding_iff.mp h).2.1)
    rw [if_neg other]
    exact (if_neg e).symm

/-! ### The beginning of yielding -/

/-- An OVERTIME holding begins yielding with a grace: its grace timer and its YIELD notice (R62). -/
theorem State.OneEach.beginYield_grace (one : s.OneEach) (hm : c ∈ s.claims) (hs : c.state = .held g .overtime)
    {grace : Word16} (hg : s.graceOf c.resource = some grace) (hz : grace ≠ 0) :
    s.beginYield c.resource (Claim.ofPort c.owner) =
      (s.rephase c g (.yielding (s.now + msUnits grace))).notify c.owner (.yieldDue c.resource g grace) := by
  have isDue : ∀ d ∈ s.claims, Claim.dueOn c.resource (Claim.ofPort c.owner) d = true ↔ d = c := fun d hd => by
    simp only [Claim.dueOn, Claim.ofPort, Bool.and_eq_true, beq_iff_eq]
    refine ⟨fun h => one.eq hd hm h.2 h.1.1, ?_⟩
    rintro rfl
    simp [hs, ClaimState.isOvertime]
  have due : s.claims.filter (Claim.dueOn c.resource (Claim.ofPort c.owner)) = [c] :=
    eq_singleton_of_nodup (one.nodup.filter _) (List.mem_filter.mpr ⟨hm, (isDue c hm).mpr rfl⟩) fun d hd =>
      (isDue d (List.mem_filter.mp hd).1).mp (List.mem_filter.mp hd).2
  have grant : c.state.grant.getD 0 = g := by rw [hs]; rfl
  have claims : (s.claims.map fun d => if Claim.dueOn c.resource (Claim.ofPort c.owner) d = true then
      { d with state := .held (d.state.grant.getD 0) (.yielding (s.now + msUnits grace)) } else d) =
      s.claims.map (c.rephased g (.yielding (s.now + msUnits grace))) := List.map_congr_left fun d hd => by
    by_cases e : d = c
    · rw [if_pos ((isDue d hd).mpr e), Claim.rephased, if_pos e, e, grant]
    · rw [if_neg fun h => e ((isDue d hd).mp h), Claim.rephased, if_neg e]
  unfold State.beginYield
  unfold Claim.dueOn at due claims
  simp only [hg, hz, if_false, due, claims, List.foldl_cons, List.foldl_nil, grant]
  rfl

/-- With grace 0 the holding is revoked (R62). -/
theorem State.beginYield_noGrace (hg : s.graceOf x = some 0) (sel : Claim → Bool) : s.beginYield x sel =
    s.revoke x .overtime (Claim.dueOn x sel) := by
  unfold State.beginYield
  rw [hg]
  rfl

theorem State.yieldLosers_grace {grace : Word16} (hg : s.graceOf x = some grace) (hz : grace ≠ 0) (sel : Claim → Bool) :
    s.yieldLosers x sel = [] := by
  unfold State.yieldLosers
  rw [hg]
  exact if_neg hz

theorem State.evaluate_nil (s : State) : s.evaluate [] = s := State.evaluate_nothing_waits s [] nofun

/-! ### The expiries -/

/-- The holding `c` OVERTIME at the moment at which its hold timer expires (R61). -/
def State.overtimeAt (s : State) (c : Claim) (g : Word16) (t : Time) : State := (s.passTo t).rephase c g .overtime

/-- HOLD_EXPIRY makes the holding OVERTIME, and yield where a claim waits (R61). -/
theorem exec_holdExpiry (one : s.OneEach) (hc : s.claimOn p x = some c) (hs : c.state = .held g (.timing t)) :
    exec (.holdExpiry p x) s = .next
      (if s.waitQueue x = [] then s.overtimeAt c g t
       else ((s.overtimeAt c g t).beginYield x (Claim.ofPort p)).evaluate
        ((s.overtimeAt c g t).yieldLosers x (Claim.ofPort p))).endOfEvent := by
  have overtime : (s.passTo t).setOvertime p x = s.overtimeAt c g t := State.OneEach.setOvertime_eq (s := s.passTo t) one hc hs
  have waits : (s.overtimeAt c g t).waitQueue x = s.waitQueue x := State.waitQueue_rephase (s := s.passTo t) hs .overtime
  show execHoldExpiry p x s = _
  unfold execHoldExpiry
  simp only [State.holdPhase_of_claimOn hc hs, overtime, waits, List.isEmpty_iff]

theorem State.OneEach.overtimeAt (one : s.OneEach) (c : Claim) (g : Word16) (t : Time) : (s.overtimeAt c g t).OneEach :=
  State.OneEach.rephase (s := s.passTo t) one c g .overtime

theorem State.overtimeAt_mem (hc : c ∈ s.claims) : { c with state := .held g .overtime } ∈ (s.overtimeAt c g t).claims :=
  State.rephase_mem (s := s.passTo t) hc

theorem State.overtimeAt_outside (s : State) (c : Claim) (g : Word16) (t : Time) :
    (s.passTo t).SameOutsideClaimTable (s.overtimeAt c g t) := (s.passTo t).rephase_outside c g .overtime

/-- With a grace the expiry changes the holding's phase and adds its YIELD notice, and nothing else (R61, R62). -/
theorem exec_holdExpiry_grace (one : s.OneEach) (hc : s.claimOn p x = some c) (hs : c.state = .held g (.timing t))
    (hw : s.waitQueue x ≠ []) {grace : Word16} (hg : s.graceOf x = some grace) (hz : grace ≠ 0) :
    exec (.holdExpiry p x) s = .next (((s.passTo t).rephase c g (.yielding (max s.now t + msUnits grace))).notify p
      (.yieldDue x g grace)).endOfEvent := by
  have expiry := exec_holdExpiry one hc hs
  obtain ⟨hm, rfl, rfl⟩ := State.mem_of_claimOn hc
  have hg : (s.overtimeAt c g t).graceOf c.resource = some grace := hg
  have yields : (s.overtimeAt c g t).beginYield c.resource (Claim.ofPort c.owner) = _ :=
    (one.overtimeAt c g t).beginYield_grace (State.overtimeAt_mem hm) rfl hg hz
  have twice := State.OneEach.rephase_rephase (s := s.passTo t) one hm (g := g) (ph := .overtime)
    (ph' := .yielding (max s.now t + msUnits grace))
  rw [if_neg hw, State.yieldLosers_grace hg hz, State.evaluate_nil, yields] at expiry
  exact expiry.trans (congrArg
    (fun u : State => Host.Outcome.next (u.notify c.owner (.yieldDue c.resource g grace)).endOfEvent) twice)

/-- GRACE_EXPIRY revokes the holding (R63). -/
theorem exec_graceExpiry (hc : s.claimOn p x = some c) (hs : c.state = .held g (.yielding t)) : exec (.graceExpiry p x) s =
    .next ((((s.passTo t).revoke x .overtime (Claim.ofPort p)).evaluate [x]).endOfEvent) := by
  show execGraceExpiry p x s = _
  unfold execGraceExpiry
  rw [State.holdPhase_of_claimOn hc hs]

/-! ### A revocation behind which nobody waits -/

/-- The removal of one holding with its notice (R56, R64). -/
structure State.RevokedAlone (s u : State) (c : Claim) (n : Notice) : Prop where
  claims : u.claims = s.claims.erase c
  slots : u.slots = s.slots
  queue : s.isOpen c.owner = true → u.queue c.owner = (s.queue c.owner).add n
  cooling : ∀ d lu, s.kindOf c.resource = some (.line d .held lu) →
    u.kindOf c.resource = some (.line d .cooling { applied := none, phase := .guard (s.now + d.guard.toNat) })
  others : ∀ y, y ≠ c.resource → u.resource y = s.resource y

theorem State.OneEach.revoke_alone (one : s.OneEach) (hm : c ∈ s.claims) (hs : c.state = .held g ph)
    (hw : s.waitQueue c.resource = []) (reason : RevokeReason) :
    s.RevokedAlone ((s.revoke c.resource reason (Claim.ofPort c.owner)).evaluate [c.resource]) c
      (.revoked c.resource g reason) := by
  have own : ∀ d, Claim.ofPort c.owner d = true → d.owner = c.owner := fun d hd => beq_iff_eq.mp hd
  have assigned : c ∈ s.assigned c.resource := State.mem_assigned.mpr ⟨hm, rfl, by rw [hs]; rfl⟩
  have chosen : Claim.heldBy c.resource (Claim.ofPort c.owner) c = true := by
    simp [Claim.heldBy, Claim.ofPort, hs, ClaimState.isHeld]
  have chosenOnly : ∀ d, Claim.heldBy c.resource (Claim.ofPort c.owner) d = true →
      d.owner = c.owner ∧ d.resource = c.resource := fun d hd => by
    simp only [Claim.heldBy, Bool.and_eq_true, beq_iff_eq] at hd
    exact ⟨own d hd.2, hd.1.1⟩
  have stands : (s.revoke c.resource reason (Claim.ofPort c.owner)).evaluate [c.resource] =
      (s.removeClaims (Claim.heldBy c.resource (Claim.ofPort c.owner))).notify c.owner (.revoked c.resource g reason) := by
    rw [one.revoke_one assigned hs (beq_self_eq_true c.owner) own]
    refine State.evaluate_nothing_waits _ _ fun y hy => ?_
    rw [List.mem_singleton.mp hy, State.waitQueue, State.notify_claims]
    exact (s.waitQueue_removeClaims c.resource _).trans (by rw [hw]; rfl)
  have removed := s.removeClaims_tableEvent (Claim.heldBy c.resource (Claim.ofPort c.owner))
  rw [stands]
  refine ⟨?_, ?_, fun ho => ?_, fun d lu hk => ?_, fun y hy => ?_⟩
  · rw [State.notify_claims, State.removeClaims_claims, one.filter_not_eq_erase hm chosen chosenOnly]
  · rw [State.notify_slots, State.removeClaims_slots]
  · rw [State.queue_notify, if_pos ⟨rfl, (removed.outside.isOpen _).trans ho⟩, State.queue, State.removeClaims_queues]
    rfl
  · obtain ⟨r, hr, hkind⟩ := State.kindOf_eq_some hk
    obtain ⟨-, -, -, line⟩ := s.removeClaims_unwound c.resource _ hr ⟨c, assigned, chosen⟩
    rw [State.kindOf, State.resource, State.notify_resources]
    exact congrArg (Option.map Resource.kind) (line d .held lu hkind (.inr rfl)).1
  · rw [State.resource, State.notify_resources]
    refine s.removeClaims_resource_other _ y fun d hd => ?_
    by_contra h
    exact hy ((State.mem_assigned.mp hd).2.1.symm.trans (chosenOnly d (by simpa using h)).2)
end

/-- Settles O45: the holding is OVERTIME, and behind it a claim that waits makes it yield or takes it. -/
theorem holdExpiryYieldsToWaiters : Obligations.HoldExpiryYieldsToWaiters := by
  intro p x c g t s pool hc hs now
  have one : s.OneEach := pool.oneEach
  have expiry := exec_holdExpiry one hc hs
  have overtime := s.overtimeAt_outside c g t
  refine ⟨fun hw => ?_, fun grace hw hg hz => ?_, fun hw hg => ?_⟩
  · rw [if_pos hw] at expiry
    have outside := overtime.trans (State.endOfEvent_outside _)
    exact ⟨_, expiry, outside.now, State.endOfEvent_claims _, State.endOfEvent_slots _, State.endOfEvent_queues _,
      State.endOfEvent_resources _, State.endOfEvent_lineReports _, outside.expired⟩
  · have outside := ((s.passTo t).rephase_outside c g (.yielding (now + msUnits grace))).trans
      (State.notify_tableEvent _ p (.yieldDue x g grace)).ended
    refine ⟨_, exec_holdExpiry_grace one hc hs hw hg hz, outside.now, ?_, fun ho => ?_, fun q hq => ?_, ?_, ?_, ?_,
      outside.expired⟩
    · rw [State.endOfEvent_claims, State.notify_claims]; rfl
    · rw [State.endOfEvent_queue, State.queue_notify, if_pos ⟨rfl, ho⟩]; rfl
    · rw [State.endOfEvent_queue, State.queue_notify, if_neg fun h => hq h.1.symm]; rfl
    · rw [State.endOfEvent_slots, State.notify_slots]; rfl
    · rw [State.endOfEvent_resources, State.notify_resources]; rfl
    · rw [State.endOfEvent_lineReports, State.notify_lineReports]; rfl
  · rw [if_neg hw, State.beginYield_noGrace (s := s.overtimeAt c g t) hg] at expiry
    obtain ⟨hm, rfl, rfl⟩ := State.mem_of_claimOn hc
    have assigned : { c with state := .held g .overtime } ∈ (s.overtimeAt c g t).assigned c.resource :=
      State.mem_assigned.mpr ⟨State.overtimeAt_mem hm, rfl, rfl⟩
    have due : Claim.dueOn c.resource (Claim.ofPort c.owner) { c with state := .held g .overtime } = true := by
      simp [Claim.dueOn, Claim.ofPort, ClaimState.isOvertime]
    obtain ⟨event, hgone, hnotice⟩ := (one.overtimeAt c g t).revoke_evaluate assigned rfl due .overtime
      ((s.overtimeAt c g t).yieldLosers c.resource (Claim.ofPort c.owner))
    have outside := overtime.trans event.ended
    exact ⟨_, expiry, outside.now, by simpa using hgone, fun ho => (hnotice ho).congr (State.endOfEvent_queue _ _),
      outside.expired⟩

/-- Settles O46: the revocation takes the holding, which no evaluation gives back, and alone it is all that happens. -/
theorem graceExpiryRevokes : Obligations.GraceExpiryRevokes := by
  intro p x c g t s pool hc hs
  have one : (s.passTo t).OneEach := pool.oneEach
  have expiry := exec_graceExpiry hc hs
  have assigned : c ∈ (s.passTo t).assigned x := State.assigned_of_claimOn hc hs
  obtain ⟨hm, rfl, rfl⟩ := State.mem_of_claimOn hc
  obtain ⟨event, hgone, hnotice⟩ := one.revoke_evaluate assigned hs (sel := Claim.ofPort c.owner) (beq_self_eq_true c.owner)
    .overtime [c.resource]
  refine ⟨_, expiry, event.ended.now, by simpa using hgone, fun ho => (hnotice ho).congr (State.endOfEvent_queue _ _),
    fun hw => ?_, event.ended.expired⟩
  have alone := one.revoke_alone hm hs hw .overtime
  refine ⟨?_, ?_, fun ho => ?_, fun d lu hk => ?_, fun y hy => ?_⟩
  · rw [State.endOfEvent_claims]; exact alone.claims
  · rw [State.endOfEvent_slots]; exact alone.slots
  · rw [State.endOfEvent_queue]; exact alone.queue ho
  · rw [State.endOfEvent_kindOf]; exact alone.cooling d lu hk
  · rw [State.endOfEvent_resource]; exact alone.others y hy

end Sys2Proof.Machine
end

section
/-! ## The phase timers and the taking of stale reports -/

namespace Sys2Proof.Machine

section
variable {s : State} {x : ResNo} {d : LineDef} {st : LineState} {a : Option Port} {ph : Phase} {t : Time} {k : LineReportKind}

/-- A report that is not current leaves the reports waiting, and that is all that its taking does (R77). -/
theorem State.takeReport_stale {act : State → State}
    (h : s.oldestReport x k = some { resource := x, kind := k, current := false }) :
    s.takeReport x k act = (s.dropReport x).endOfEvent := by
  unfold State.takeReport; rw [h]; rfl

theorem exec_phaseTimerExpiry (hk : s.kindOf x = some (.line d st { applied := a, phase := ph }))
    (he : ph.expiry = some (t, k)) :
    exec (.phaseTimerExpiry x) s = .next (((s.passTo t).setPhase x .quiet).report x k) := by
  have record : s.phaseRecord x = some { applied := a, phase := ph } := by simp [State.phaseRecord, hk]
  show execPhaseTimerExpiry x s = _
  unfold execPhaseTimerExpiry
  rw [record, Option.bind_some, he]

/-- What the Line Unit's passage to another phase, with its report, makes of the resource and the reports (R74, R77). -/
theorem State.kindOf_phaseReport (hk : s.kindOf x = some (.line d st { applied := a, phase := ph })) (ph' : Phase)
    (k : LineReportKind) :
    ((s.setPhase x ph').report x k).kindOf x = some (.line d st { applied := a, phase := ph' }) :=
  State.kindOf_setPhase s x ph' hk

theorem State.phaseReport_lineReports (s : State) (x : ResNo) (ph : Phase) (k : LineReportKind) :
    ((s.setPhase x ph).report x k).lineReports = s.lineReports ++ [{ resource := x, kind := k, current := true }] := rfl
end

/-- Settles O47: an expiry is a passage of the phase record with its report, and a stale report is dropped. -/
theorem phaseTimersReportAndStaleReportsDoNothing : Obligations.PhaseTimersReportAndStaleReportsDoNothing := by
  refine fun x s => ⟨fun d st a ph t k hk hph => ?_, fun k i hi hr => ?_⟩
  · have expiry : ph.expiry = some (t, k) := by
      rcases hph with ⟨rfl, rfl⟩ | ⟨rfl, rfl⟩ | ⟨rfl, rfl⟩ <;> rfl
    have order := (s.passTo t).phaseReport_lineOrder x .quiet k
    exact ⟨_, exec_phaseTimerExpiry hk expiry, order.outside.now, State.kindOf_phaseReport (s := s.passTo t) hk .quiet k,
      order.others, (s.passTo t).phaseReport_lineReports x .quiet k, order.claims, order.slots, order.queues,
      order.outside.expired⟩
  · rcases hi with ⟨rfl, rfl⟩ | ⟨rfl, rfl⟩ | ⟨rfl, rfl⟩ | ⟨rfl, rfl⟩ | ⟨rfl, rfl⟩ | ⟨rfl, rfl⟩ <;>
      exact congrArg Host.Outcome.next (State.takeReport_stale hr)

end Sys2Proof.Machine
end

section
/-! ## The confirm inputs -/

namespace Sys2Proof.Machine

/-- Every resource meets the new filtered level of confirm input `c` (R78). -/
def State.allMeetLevel (s : State) (c : ConfNo) : State := (List.finRange 64).foldl (State.meetLevel c) s

/-- The filtered level of confirm input `c` has taken its raw level at the moment `t` (R78, log entry 4). -/
def State.confirmSettled (s : State) (c : ConfNo) (t : Time) : State :=
  (s.passTo t).setConfirm c s.confirmInputs[c].settle

section
variable {s : State} {c : ConfNo} {x : ResNo} {d : LineDef} {st : LineState} {lu : PhaseRecord} {b : ConfirmBinding}
  {k : LineReportKind} {ph : Phase}

/-! ### The filter -/

theorem exec_confirmInputChange {level : Bool} (h : s.confirmInputs[c].raw ≠ level) : exec (.confirmInputChange c level) s =
    .next (s.setConfirm c { s.confirmInputs[c] with raw := level, changed := s.now }) := by
  show execConfirmInputChange c level s = _
  rw [execConfirmInputChange, InputFilter.rawChange, if_neg h]

theorem exec_confirmInputChange_same {level : Bool} (h : s.confirmInputs[c].raw = level) :
    exec (.confirmInputChange c level) s = .next s := by
  have same : s.setConfirm c s.confirmInputs[c] = s := by simp [State.setConfirm]
  show execConfirmInputChange c level s = _
  rw [execConfirmInputChange, InputFilter.rawChange, if_pos h, same]

theorem exec_confirmFilterChange_same (h : s.confirmInputs[c].raw = s.confirmInputs[c].filtered) :
    exec (.confirmFilterChange c) s = .next s := by
  show execConfirmFilterChange c s = _
  rw [execConfirmFilterChange, InputFilter.due, if_pos h]

theorem exec_confirmFilterChange (h : s.confirmInputs[c].raw ≠ s.confirmInputs[c].filtered) :
    exec (.confirmFilterChange c) s =
      .next ((s.confirmSettled c (s.confirmInputs[c].changed + s.filterTime * 10)).allMeetLevel c) := by
  show execConfirmFilterChange c s = _
  rw [execConfirmFilterChange, InputFilter.due, if_neg h]
  rfl

theorem State.confirmSettled_input (s : State) (c e : ConfNo) (t : Time) : (s.confirmSettled c t).confirmInputs[e] =
    if c = e then { s.confirmInputs[c] with filtered := s.confirmInputs[c].raw } else s.confirmInputs[e] :=
  State.confirm_setConfirm (s.passTo t) c e _

/-- The new level as a binding to the input reads it (R6). -/
theorem State.confirmSettled_engagedLevel (s : State) (b : ConfirmBinding) (t : Time) :
    (s.confirmSettled b.input t).engagedLevel b = (s.confirmInputs[b.input].raw == b.engagedHigh) := by
  rw [State.engagedLevel, State.confirmSettled_input, if_pos rfl]

/-- What the change of a filtered level leaves outside the Claim Table but for the confirm inputs and the time. -/
theorem State.SameOutsideClaimTable.filtered {u : State} {t : Time} (o : (s.confirmSettled c t).SameOutsideClaimTable u) :
    u.sessions = s.sessions ∧ u.ports = s.ports ∧ u.severInputs = s.severInputs ∧ s.SameSupervision u ∧ s.SameEvents u :=
  ⟨o.sessions, o.ports, o.severInputs, ⟨o.mode, o.supervisor, o.threshold, o.recovery, o.filterTime⟩,
    ⟨o.ackEvents, o.liveReports⟩⟩

/-! ### One resource -/

/-- A phase that the level ends passes on with its report (R81, R87, R90, R93). -/
theorem State.meetLevel_ends (hk : s.kindOf x = some (.line d st lu)) (hb : d.confirm = some b)
    (hl : lu.phase.onLevel (s.engagedLevel b) = some (k, ph)) :
    State.meetLevel b.input s x = (s.setPhase x ph).report x k := by
  simp [State.meetLevel, hk, hb, hl]

/-- The level means nothing in any other phase (R81). -/
theorem State.meetLevel_stands (hk : s.kindOf x = some (.line d st lu)) (hb : d.confirm = some b)
    (hl : lu.phase.onLevel (s.engagedLevel b) = none) : State.meetLevel b.input s x = s := by
  simp [State.meetLevel, hk, hb, hl]

theorem State.meetLevel_unbound (h : ∀ d, s.lineDef x = some d → ∀ b, d.confirm = some b → b.input ≠ c) :
    State.meetLevel c s x = s := by
  unfold State.meetLevel
  split
  · next d st lu hk =>
    split
    · next b hb => rw [if_neg (h d (State.lineDef_of_kindOf hk) b hb)]
    · rfl
  · rfl

/-! ### Every resource -/

theorem State.allMeetLevel_resource (s : State) (c : ConfNo) (x : ResNo) :
    (s.allMeetLevel c).resource x = (State.meetLevel c s x).resource x := by
  rw [State.allMeetLevel, State.meetLevels_resource c x _ s (List.nodup_finRange 64), if_pos (List.mem_finRange x)]

theorem State.allMeetLevel_kindOf (s : State) (c : ConfNo) (x : ResNo) :
    (s.allMeetLevel c).kindOf x = (State.meetLevel c s x).kindOf x := by
  rw [State.kindOf, State.allMeetLevel_resource]; rfl

theorem State.allMeetLevel_ends (hk : s.kindOf x = some (.line d st lu)) (hb : d.confirm = some b)
    (hl : lu.phase.onLevel (s.engagedLevel b) = some (k, ph)) : let u := s.allMeetLevel b.input
    u.kindOf x = some (.line d st { lu with phase := ph })
    ∧ { resource := x, kind := k, current := true } ∈ u.lineReports := by
  have ends := State.meetLevel_ends hk hb hl
  refine ⟨?_, State.meetLevels_report b.input x _ s (List.nodup_finRange 64) (List.mem_finRange x) _ ?_⟩
  · rw [State.allMeetLevel_kindOf, ends]
    exact State.kindOf_phaseReport hk ph k
  · rw [ends, State.phaseReport_lineReports]
    exact List.mem_append_right _ (List.mem_singleton_self _)

theorem State.allMeetLevel_rest (s : State) (c : ConfNo) :
    s.MeetsLevel (s.allMeetLevel c) ∧ (s.allMeetLevel c).confirmInputs = s.confirmInputs := State.meetLevels_rest c _ s
end

/-- Settles O48: each resource meets the filtered level for itself, by its binding and its phase. -/
theorem confirmInputsEndPhases : Obligations.ConfirmInputsEndPhases := by
  refine fun c s => ⟨fun level => exec_confirmInputChange, fun level => exec_confirmInputChange_same,
    exec_confirmFilterChange_same, fun hne => ?_⟩
  generalize ht : s.confirmInputs[c].changed + s.filterTime * 10 = t
  obtain ⟨rest, inputs⟩ := (s.confirmSettled c t).allMeetLevel_rest c
  refine ⟨_, ht ▸ exec_confirmFilterChange hne, rest.outside.now, ?_, fun e he => ?_, fun x d st a ph b hk hb hc => ?_,
    fun x hx => ?_, rest.claims, rest.slots, rest.queues, rest.outside.filtered⟩
  · rw [inputs, State.confirmSettled_input, if_pos rfl]
  · rw [inputs, State.confirmSettled_input, if_neg (Ne.symm he)]
  · subst hc
    have hk' : (s.confirmSettled b.input t).kindOf x = some (.line d st { applied := a, phase := ph }) := hk
    have level := s.confirmSettled_engagedLevel b t
    refine ⟨?_, ?_, ?_, fun hph => ?_⟩
    · rintro t rfl hl
      exact State.allMeetLevel_ends hk' hb (by rw [level, hl]; rfl)
    · rintro t rfl hl
      exact State.allMeetLevel_ends hk' hb (by rw [level, hl]; rfl)
    · rintro rfl hl
      exact State.allMeetLevel_ends hk' hb (by rw [level, hl]; rfl)
    · rw [State.allMeetLevel_kindOf, State.meetLevel_stands hk' hb, hk', hk]
      rcases hph with rfl | ⟨t, rfl⟩ <;> rfl
  · have hx : ∀ d, (s.confirmSettled c t).lineDef x = some d → ∀ b, d.confirm = some b → b.input ≠ c := hx
    rw [State.allMeetLevel_resource, State.meetLevel_unbound hx]
    rfl

end Sys2Proof.Machine
end

section
/-! ## The handover of a LINE resource -/

namespace Sys2Proof.Machine

section
variable {s t u : State} {x : ResNo} {d : LineDef} {st : LineState} {lu : PhaseRecord} {b : ConfirmBinding} {c : Claim}
  {k : Port}

/-! ### The beginning of verification and of engagement -/

theorem State.kindOf_drivePattern (hk : s.kindOf x = some (.line d st lu)) (k : Port) :
    (s.drivePattern x k).kindOf x = some (.line d st { lu with applied := some k }) := State.kindOf_order s x _ d st lu hk

/-- Engagement waits for its confirm input (R90). -/
theorem State.beginEngage_released (hk : s.kindOf x = some (.line d st lu)) (hb : d.confirm = some b)
    (hl : s.engagedLevel b = false) : (s.beginEngage x k).kindOf x =
      some (.line d .engage { applied := some k, phase := .engage (s.now + b.timeout.toNat * 100) }) := by
  obtain ⟨-, engaging, -⟩ := (s.drivePattern x k).startEngage_spec x d st _ (State.kindOf_drivePattern hk k)
  exact State.kindOf_setLineState _ x .engage d st _ (engaging b hb hl)

/-- Engagement is seen at once where the confirm input stands at the engaged level (R90). -/
theorem State.beginEngage_engaged (hk : s.kindOf x = some (.line d st lu)) (hb : d.confirm = some b)
    (hl : s.engagedLevel b = true) :
    (s.beginEngage x k).kindOf x = some (.line d .engage { applied := some k, phase := .watch })
    ∧ { resource := x, kind := .engagedSeen, current := true } ∈ (s.beginEngage x k).lineReports := by
  obtain ⟨watching, -, -⟩ := (s.drivePattern x k).startEngage_spec x d st _ (State.kindOf_drivePattern hk k)
  obtain ⟨kind, reported⟩ := watching b hb hl
  exact ⟨State.kindOf_setLineState _ x .engage d st _ kind, reported⟩

/-- Engagement is seen at once where there is no confirm input (R90). -/
theorem State.beginEngage_unconfirmed (hk : s.kindOf x = some (.line d st lu)) (hb : d.confirm = none) :
    (s.beginEngage x k).kindOf x = some (.line d .engage { applied := some k, phase := .quiet })
    ∧ { resource := x, kind := .engagedSeen, current := true } ∈ (s.beginEngage x k).lineReports := by
  obtain ⟨-, -, quiet⟩ := (s.drivePattern x k).startEngage_spec x d st _ (State.kindOf_drivePattern hk k)
  obtain ⟨kind, reported⟩ := quiet hb
  exact ⟨State.kindOf_setLineState _ x .engage d st _ kind, reported⟩

/-- The choice of R85 falls on engagement where no confirm input stands at the engaged level. -/
theorem State.engageOrVerify_eq_beginEngage (hk : s.kindOf x = some (.line d st lu))
    (hl : ∀ b, d.confirm = some b → s.engagedLevel b = false) : s.engageOrVerify x k = s.beginEngage x k := by
  unfold State.engageOrVerify
  rw [State.lineDef_of_kindOf hk, Option.bind_some]
  cases hb : d.confirm with
  | none => rfl
  | some b => rw [Option.map_some, hl b hb]; rfl

/-- The choice of R85 falls on verification where the confirm input stands at the engaged level. -/
theorem State.kindOf_engageOrVerify_engaged (hk : s.kindOf x = some (.line d st lu)) (hb : d.confirm = some b)
    (hl : s.engagedLevel b = true) : (s.engageOrVerify x k).kindOf x =
      some (.line d .verify { lu with phase := .verify (s.now + b.timeout.toNat * 100) }) := by
  have verify : s.engageOrVerify x k = (s.startVerify x).setLineState x .verify := by
    simp [State.engageOrVerify, State.lineDef_of_kindOf hk, hb, hl]
  have ends : s.confirmEnds d = s.now + b.timeout.toNat * 100 := by
    simp [State.confirmEnds, hb, msUnits, Config.unitsPerMs]
  have started : (s.startVerify x).kindOf x = some (.line d st { lu with phase := .verify (s.confirmEnds d) }) :=
    State.kindOf_order s x _ d st lu hk
  rw [verify, State.kindOf_setLineState _ x .verify d st _ started, ends]

/-! ### The taking of a report -/

/-- An order for a resource that one EXCLUSIVE claim has lets nobody else on it (R33, R36). -/
theorem State.LineOrder.evaluate_exclusive (o : State.LineOrder x s u) (ha : s.assigned x = [c]) (hm : c.mode = .exclusive) :
    u.evaluate [x] = u := by
  refine State.evaluate_idle u [x] fun y hy p h => ?_
  have assigned : u.assigned x = [c] := by rw [State.assigned, o.claims]; exact ha
  rw [List.mem_singleton.mp hy]
  exact State.not_ready_of_exclusive (assigned ▸ List.mem_singleton_self c) hm p h

/-- What an order in the event of a report leaves alone (R76, R77). -/
theorem State.LineOrder.afterReport (o : State.LineOrder x (s.dropReport x) u) : let t := u.endOfEvent
    (∀ y, y ≠ x → t.resource y = s.resource y) ∧ t.claims = s.claims ∧ t.slots = s.slots ∧ t.queues = s.queues
      ∧ s.SameOutsideClaimTable t := by
  refine ⟨fun y hy => ?_, ?_, ?_, ?_, ((s.dropReport_outside x).trans o.outside).trans u.endOfEvent_outside⟩
  · rw [State.endOfEvent_resource]; exact o.others y hy
  · rw [State.endOfEvent_claims]; exact o.claims
  · rw [State.endOfEvent_slots]; exact o.slots
  · rw [State.endOfEvent_queues]; exact o.queues

theorem exec_guardElapsed_cooling (hk : s.kindOf x = some (.line d .cooling lu))
    (hr : s.oldestReport x .guardElapsed = some { resource := x, kind := .guardElapsed, current := true }) :
    exec (.guardElapsed x) s = .next ((s.dropReport x).setLineState x .vacant).endOfEvent := by
  have hl : (s.dropReport x).lineState x = some .cooling := State.lineState_of_kindOf (s := s.dropReport x) hk
  refine (congrArg Host.Outcome.next (State.takeReport_current hr)).trans ?_
  rw [State.onGuardElapsed, hl]

theorem exec_guardElapsed_guard (hk : s.kindOf x = some (.line d .guard lu)) (ha : s.assigned x = [c])
    (hm : c.mode = .exclusive)
    (hr : s.oldestReport x .guardElapsed = some { resource := x, kind := .guardElapsed, current := true }) :
    exec (.guardElapsed x) s = .next ((s.dropReport x).engageOrVerify x c.owner).endOfEvent := by
  have hl : (s.dropReport x).lineState x = some .guard := State.lineState_of_kindOf (s := s.dropReport x) hk
  have ha : (s.dropReport x).assigned x = [c] := ha
  have alone := ((s.dropReport x).engageOrVerify_lineOrder x c.owner).evaluate_exclusive ha hm
  refine (congrArg Host.Outcome.next (State.takeReport_current hr)).trans ?_
  simp [State.onGuardElapsed, hl, State.assignedPort, ha, alone]

theorem exec_releaseSeen_verify (hk : s.kindOf x = some (.line d .verify lu)) (ha : s.assigned x = [c])
    (hm : c.mode = .exclusive)
    (hr : s.oldestReport x .releaseSeen = some { resource := x, kind := .releaseSeen, current := true }) :
    exec (.releaseSeen x) s = .next ((s.dropReport x).beginEngage x c.owner).endOfEvent := by
  have hl : (s.dropReport x).lineState x = some .verify := State.lineState_of_kindOf (s := s.dropReport x) hk
  have ha : (s.dropReport x).assigned x = [c] := ha
  have alone : ((((s.dropReport x).drivePattern x c.owner).startEngage x).setLineState x .engage).evaluate [x] =
      (s.dropReport x).beginEngage x c.owner :=
    ((s.dropReport x).beginEngage_lineOrder x c.owner).evaluate_exclusive ha hm
  refine (congrArg Host.Outcome.next (State.takeReport_current hr)).trans ?_
  simp [State.onReleaseSeen, hl, State.assignedPort, ha, alone]
end

/-- Settles O50: the report's effect is one order for the resource, behind which its EXCLUSIVE claim lets nobody move. -/
theorem handoverFollowsTheReports : Obligations.HandoverFollowsTheReports := by
  intro x d st lu s hk
  have hk' : (s.dropReport x).kindOf x = some (.line d st lu) := hk
  refine ⟨fun hr => ⟨?_, ?_⟩, fun hr => ?_⟩
  · rintro rfl
    obtain ⟨others, claims, slots, queues, outside⟩ :=
      State.LineOrder.afterReport ((s.dropReport x).setLineState_lineOrder x .vacant)
    refine ⟨_, exec_guardElapsed_cooling hk hr, ?_, others, ?_, claims, slots, queues, outside⟩
    · rw [State.endOfEvent_kindOf, State.kindOf_setLineState _ x .vacant d _ lu hk']
    · rw [State.endOfEvent_lineReports]; rfl
  · rintro c rfl ha hm
    refine ⟨_, exec_guardElapsed_guard hk ha hm hr, fun b hb hl => ?_, fun b hb hl => ?_, fun hb => ?_,
      State.LineOrder.afterReport ((s.dropReport x).engageOrVerify_lineOrder x c.owner)⟩
    · rw [State.endOfEvent_kindOf]
      exact State.kindOf_engageOrVerify_engaged hk' hb hl
    · have released : ∀ b', d.confirm = some b' → (s.dropReport x).engagedLevel b' = false := fun b' hb' => by
        rw [hb] at hb'; cases hb'; exact hl
      rw [State.endOfEvent_kindOf, State.engageOrVerify_eq_beginEngage hk' released]
      exact State.beginEngage_released hk' hb hl
    · have none : ∀ b, d.confirm = some b → (s.dropReport x).engagedLevel b = false := fun b hb' => by
        rw [hb] at hb'; cases hb'
      rw [State.endOfEvent_kindOf, State.endOfEvent_lineReports, State.engageOrVerify_eq_beginEngage hk' none]
      exact State.beginEngage_unconfirmed hk' hb
  · rintro c b rfl ha hm hb
    refine ⟨_, exec_releaseSeen_verify hk ha hm hr, fun hl => ?_, fun hl => ?_,
      State.LineOrder.afterReport ((s.dropReport x).beginEngage_lineOrder x c.owner)⟩
    · rw [State.endOfEvent_kindOf]
      exact State.beginEngage_released hk' hb hl
    · rw [State.endOfEvent_kindOf, State.endOfEvent_lineReports]
      exact State.beginEngage_engaged hk' hb hl

end Sys2Proof.Machine
end

section
/-! ## CLEAR_FAULT -/

namespace Sys2Proof.Machine

/-- The kind part of a resource whose fault has been cleared at a moment (R97). -/
def Kind.faultCleared (now : Time) : Kind → Kind
  | .token sh .faulted => .token sh .vacant
  | .line d (.faulted _) _ => .line d .cooling { applied := none, phase := .guard (now + d.guard.toNat) }
  | k => k

section
variable {s : State} {p : Port} {x : ResNo} {f : Frame} {r : Resource}

theorem Kind.faultCleared_isFaulted (now : Time) (k : Kind) : (k.faultCleared now).isFaulted = false := by
  rcases k with ⟨sh, st⟩ | ⟨d, st, lu⟩ <;> cases st <;> rfl

/-- CLEAR_FAULT of a resource that is not FAULTED changes nothing (R97). -/
theorem State.clearFaultEvent_sound (hr : s.resource x = some r) (hf : r.kind.isFaulted = false) : s.clearFaultEvent x = s := by
  have hk : s.kindOf x = some r.kind := by simp [State.kindOf, hr]
  unfold State.clearFaultEvent
  rw [hk]
  rcases hrk : r.kind with ⟨sh, st⟩ | ⟨d, st, lu⟩ <;> rw [hrk] at hf
  · cases st with
    | vacant | occupied => rfl
    | faulted => cases hf
  · cases st with
    | vacant | cooling | guard | verify | engage | held => rfl
    | faulted => cases hf

/-- CLEAR_FAULT of a FAULTED resource is the passage of its record, and an evaluation (R97). -/
theorem State.clearFaultEvent_faulted (hr : s.resource x = some r) (hf : r.kind.isFaulted = true) :
    ∃ t, State.LineOrder x s t ∧ t.kindOf x = some (r.kind.faultCleared s.now) ∧ s.clearFaultEvent x = t.evaluate [x] := by
  have hk : s.kindOf x = some r.kind := by simp [State.kindOf, hr]
  rcases hrk : r.kind with ⟨sh, st⟩ | ⟨d, st, lu⟩ <;> rw [hrk] at hk hf
  · cases st with
    | vacant | occupied => cases hf
    | faulted =>
      exact ⟨_, s.setToken_lineOrder x sh .faulted .vacant hk, s.kindOf_setKind x _ _ hk, by simp [State.clearFaultEvent, hk]⟩
  · cases st with
    | vacant | cooling | guard | verify | engage | held => cases hf
    | faulted reason =>
      exact ⟨_, s.cool_lineOrder x, s.kindOf_cool x d _ lu hk, by simp [State.clearFaultEvent, hk]⟩

/-- A resource whose fault is cleared is not FAULTED, whatever the evaluation does then (R97). -/
theorem State.clearFaultEvent_kindOf_ne (hr : s.resource x = some r) (hf : r.kind.isFaulted = true) :
    (s.clearFaultEvent x).kindOf x ≠ some r.kind := by
  obtain ⟨t, -, kind, event⟩ := State.clearFaultEvent_faulted hr hf
  have sound : t.Sound x := ⟨_, kind, Kind.faultCleared_isFaulted ..⟩
  obtain ⟨k, hk, hkf⟩ := sound.evaluateWith none [x]
  intro same
  rw [event, State.evaluate, hk] at same
  cases same
  rw [hf] at hkf
  cases hkf

/-- Where no head claim can be reserved, the passage of the record is all that happens (R33, R97). -/
theorem State.clearFaultEvent_alone (hr : s.resource x = some r) (hf : r.kind.isFaulted = true)
    (hw : s.waitQueue x = [] ∨ s.mode ≠ .service) : State.LineOrder x s (s.clearFaultEvent x)
      ∧ (s.clearFaultEvent x).resource x = some { r with kind := r.kind.faultCleared s.now } := by
  obtain ⟨t, order, kind, event⟩ := State.clearFaultEvent_faulted hr hf
  have idle : t.evaluate [x] = t := by
    rcases hw with hw | hm
    · refine State.evaluate_nothing_waits t [x] fun y hy => ?_
      rw [List.mem_singleton.mp hy, State.waitQueue, order.claims]
      exact hw
    · exact t.evaluate_not_service [x] (by rw [order.outside.mode]; exact hm)
  rw [event, idle]
  exact ⟨order, order.resource hr kind⟩

/-- The checks of a CLEAR_FAULT after its session and permission checks (R97). -/
theorem State.OpenFor.clearFault_verdict (ho : s.OpenFor p f) (hp : p = s.supervisor) :
    RequestKind.clearFault.verdict p f (s.taking .clearFault p f) = .checked (s.resourceChecks (f.byte 0) ++ [])
      (.executed .ok [] ((s.taking .clearFault p f).clearFaultEvent (resOf (f.byte 0)))) := by
  show clearFaultVerdict p f (s.taking .clearFault p f) = _
  rw [clearFaultVerdict, Verdict.checked_append (State.supervisorChecks_open ho.taking (by simpa using hp))]
  simp [State.resourceChecks]

theorem State.Offered.clearFault_executed (hof : s.Offered .clearFault p f) (ho : s.OpenFor p f) (hp : p = s.supervisor)
    (hx : (f.byte 0).toNat = x.val) (hr : s.resource x = some r) :
    let u := ((s.taking .clearFault p f).clearFaultEvent x).endOfEvent.place p f .ok [] true
    exec (.clearFault p) s = .next u ∧ s.Answered u p f .ok [] := by
  have verdict := ho.clearFault_verdict hp
  rw [Verdict.checked_append (State.resourceChecks_passed hx (by rw [hr]; rfl)), Verdict.checked_nil, resOf_eq hx] at verdict
  obtain ⟨hexec, hans, -⟩ := hof.executed verdict
  exact ⟨hexec, hans⟩
end

/-- Settles O40: the event is the passage of one record and an evaluation, which makes no resource FAULTED and does nothing
where nobody waits. -/
theorem clearFaultReturnsTheResource : Obligations.ClearFaultReturnsTheResource := by
  refine ⟨fun p f s hof ho hp => hof.checksTheResource (ho.clearFault_verdict hp), fun p x f r s hof ho hp hx hr => ?_⟩
  intro t
  obtain ⟨hexec, hans⟩ := hof.clearFault_executed ho hp hx hr
  have hr : t.resource x = some r := (State.taking_resource s .clearFault p f x).trans hr
  refine ⟨fun hf => ?_, fun hf => ?_⟩
  · rw [hexec, State.clearFaultEvent_sound hr hf]
  obtain ⟨hsup, hin, hev, hother⟩ := (t.clearFaultEvent_tableEvent x).outside.served .ok []
  refine ⟨_, hexec, hans, fun hw _ => ?_, ?_, hsup, hin, hev, hother⟩
  · obtain ⟨order, cleared⟩ := State.clearFaultEvent_alone hr hf (by simpa [t] using hw)
    simp only [State.resource_place, State.endOfEvent_resource, State.place_claims, State.endOfEvent_claims,
      State.place_slots, State.endOfEvent_slots, State.place_queues, State.endOfEvent_queues]
    refine ⟨fun sh hk => ?_, fun d y lu hk => ?_, order.claims.trans (by simp [t]), order.slots.trans (by simp [t]),
      order.queues.trans (by simp [t]), fun y hy => (order.others y hy).trans (by simp [t])⟩
    · rw [cleared, hk]
      rfl
    · rw [cleared, hk, Kind.faultCleared, State.taking_now]
  · rw [State.kindOf_place, State.endOfEvent_kindOf]
    exact State.clearFaultEvent_kindOf_ne hr hf

end Sys2Proof.Machine
end

section
/-! ## Passages that keep the laws of the sessions

A port without a session owns nothing (R120), and the misses of a LAPSED session stay below the sever threshold (R115). -/

namespace Sys2Proof.Machine

/-- A passage that keeps the laws of the sessions (R115, R120). -/
structure State.KeepsSessions (s t : State) : Prop where
  closed : s.ClosedPortLaw → t.ClosedPortLaw
  misses : s.MissLaw → t.MissLaw

section
variable {s t u : State} {p : Port}

/-! ### Passages -/

theorem State.KeepsSessions.refl (s : State) : s.KeepsSessions s := ⟨id, id⟩

theorem State.KeepsSessions.trans (a : s.KeepsSessions t) (b : t.KeepsSessions u) : s.KeepsSessions u :=
  ⟨b.closed ∘ a.closed, b.misses ∘ a.misses⟩

theorem State.KeepsSessions.foldl {α : Type} (f : State → α → State) (hf : ∀ (s : State) (a : α), s.KeepsSessions (f s a))
    (xs : List α) (s : State) : s.KeepsSessions (xs.foldl f s) := by
  induction xs generalizing s with
  | nil => exact .refl s
  | cons a xs ih => exact (hf s a).trans (ih (f s a))

/-- No session closes, and what a closed port owns does not grow. -/
theorem State.ClosedPortLaw.of_owns (law : s.ClosedPortLaw) (closes : ∀ q, t.isOpen q = false → s.isOpen q = false)
    (claims : ∀ c ∈ t.claims, ∃ d ∈ s.claims, d.owner = c.owner) (slots : ∀ q h, s.slot q h = .free → t.slot q h = .free)
    (queues : ∀ q, s.isOpen q = false → t.queue q = s.queue q) : t.ClosedPortLaw := by
  intro q hq
  obtain ⟨noClaims, free, empty⟩ := law q (closes q hq)
  refine ⟨fun c hc ho => ?_, fun h => slots q h (free h), by rw [queues q (closes q hq)]; exact empty⟩
  obtain ⟨d, hd, hdo⟩ := claims c hc
  exact noClaims d hd (hdo.trans ho)

/-- No session lapses, and no miss count and no threshold changes. -/
theorem State.MissLaw.of_sessions (law : s.MissLaw) (threshold : t.threshold = s.threshold)
    (sessions : ∀ q o l, (t.session q).state = .lapsed o l →
      ∃ o' l', (s.session q).state = .lapsed o' l' ∧ l'.missCount = l.missCount) : t.MissLaw := by
  refine ⟨threshold ▸ law.threshold, fun q o l h => ?_⟩
  obtain ⟨o', l', h', e⟩ := sessions q o l h
  rw [threshold, ← e]
  exact law.misses q o' l' h'

/-- The sessions stand, and what a closed port owns does not grow. -/
theorem State.KeepsSessions.of_owns (sessions : t.sessions = s.sessions) (threshold : t.threshold = s.threshold)
    (claims : ∀ c ∈ t.claims, ∃ d ∈ s.claims, d.owner = c.owner) (slots : ∀ q h, s.slot q h = .free → t.slot q h = .free)
    (queues : ∀ q, s.isOpen q = false → t.queue q = s.queue q) : s.KeepsSessions t := by
  have session : ∀ q, t.session q = s.session q := fun q => by simp [State.session, sessions]
  refine ⟨fun law => law.of_owns (fun q h => ?_) claims slots queues, fun law => law.of_sessions threshold fun q o l h => ?_⟩
  · rwa [State.isOpen, session] at h
  · exact ⟨o, l, session q ▸ h, rfl⟩

theorem State.KeepsSessions.same (sessions : t.sessions = s.sessions) (threshold : t.threshold = s.threshold)
    (claims : t.claims = s.claims) (slots : t.slots = s.slots) (queues : t.queues = s.queues) : s.KeepsSessions t :=
  .of_owns sessions threshold (fun c hc => ⟨c, claims ▸ hc, rfl⟩) (fun q h hs => by rwa [State.slot, slots])
    fun q _ => by simp [State.queue, queues]

theorem State.TableEvent.keepsSessions (e : s.TableEvent t) : s.KeepsSessions t :=
  .of_owns e.outside.sessions e.outside.threshold (fun c hc => (e.claim_from c hc).imp fun _ h => ⟨h.1, h.2.1⟩)
    (fun q h hs => ((e.slots q h).resolve_right (by simp [hs, Slot.isOpen])).trans hs) e.closed

theorem State.LineOrder.keepsSessions {x : ResNo} (o : State.LineOrder x s t) : s.KeepsSessions t :=
  .same o.outside.sessions o.outside.threshold o.claims o.slots o.queues

/-- The end of a session leaves its port without anything (R120). -/
theorem State.SessionEnd.keepsSessions {st : SessionState} (a : s.SessionEnd t p st) (hst : st.isOpen = false) :
    s.KeepsSessions t := by
  have other : ∀ q, q ≠ p → t.isOpen q = s.isOpen q := fun q hq => by simp [State.isOpen, a.sessions q hq]
  refine ⟨fun law q hq => ?_, fun law => law.of_sessions a.supervision.threshold fun q o l h => ?_⟩
  · by_cases e : q = p
    · subst e
      exact ⟨a.noClaims, a.freed, by rw [a.queue]⟩
    · rw [other q e] at hq
      obtain ⟨noClaims, free, empty⟩ := law q hq
      refine ⟨fun c hc ho => ?_, fun h => ?_, by rw [a.closed q e hq]; exact empty⟩
      · obtain ⟨d, hd, hk⟩ := List.mem_map.mp (a.claims.subset (List.mem_map_of_mem hc))
        exact noClaims d hd ((congrArg Prod.fst hk).trans ho)
      · exact ((a.slots q e h).resolve_right (by simp [free h, Slot.isOpen])).trans (free h)
  · by_cases e : q = p
    · subst e
      rw [a.session] at h
      rw [show st = _ from h] at hst
      cases hst
    · exact ⟨o, l, a.sessions q e ▸ h, rfl⟩

/-- A LAPSED session after the taking of frame reports was LAPSED before it (R113). -/
theorem State.Seen.lapsed_from (a : s.Seen t p) {q : Port} {o : OpenSession} {l : Lapse}
    (h : (t.session q).state = .lapsed o l) : ∃ l', (s.session q).state = .lapsed o l' ∧ l'.missCount = l.missCount := by
  by_cases e : q = p
  · subst e
    cases hs : (s.session q).state with
    | live o' =>
      obtain ⟨o1, h1, -⟩ := a.live o' hs
      rw [h1] at h; cases h
    | lapsed o' l' =>
      obtain ⟨l1, h1, hm, -⟩ := a.lapsed o' l' hs
      rw [h1] at h; cases h
      exact ⟨l', rfl, hm.symm⟩
    | idle | severed =>
      rw [a.closed (by simp [State.isOpen, hs, SessionState.isOpen]), hs] at h
      cases h
  · exact ⟨l, a.sessions q e ▸ h, rfl⟩

theorem State.Seen.keepsSessions (a : s.Seen t p) : s.KeepsSessions t where
  closed law := law.of_owns (fun q h => (a.isOpen q).symm.trans h) (fun c hc => ⟨c, a.table.claims ▸ hc, rfl⟩)
    (fun q h hs => by rwa [State.slot, a.table.slots]) fun q _ => by simp [State.queue, a.queues]
  misses law := law.of_sessions a.supervision.threshold fun _ o _ h => ⟨o, a.lapsed_from h⟩
end

/-! ### The shared operations -/

section
variable (s : State) (p : Port)

theorem State.setPort_keepsSessions (v : PortInterface) : s.KeepsSessions (s.setPort p v) := .same rfl rfl rfl rfl rfl

theorem State.passTo_keepsSessions (T : Time) : s.KeepsSessions (s.passTo T) := .same rfl rfl rfl rfl rfl

theorem State.endOfEvent_keepsSessions : s.KeepsSessions s.endOfEvent := .same (by simp) (by simp) (by simp) (by simp) (by simp)

/-- A session record written open, a LAPSED one with its miss count in the bounds of R115. -/
theorem State.setSession_keepsSessions (v : Session) (ho : v.state.isOpen = true)
    (hl : s.MissLaw → ∀ o l, v.state = .lapsed o l → 1 ≤ l.missCount ∧ l.missCount < s.threshold) :
    s.KeepsSessions (s.setSession p v) := by
  refine ⟨fun law => law.of_owns (fun q h => ?_) (fun c hc => ⟨c, hc, rfl⟩) (fun _ _ => id) fun _ _ => rfl,
    fun law => ⟨law.threshold, fun q o l h => ?_⟩⟩
  · rw [State.isOpen, State.session_setSession] at h
    split at h
    · rw [ho] at h; cases h
    · exact h
  · rw [State.session_setSession] at h
    split at h
    · exact hl law o l h
    · exact law.misses q o l h

theorem State.endSession_keepsSessions (st : SessionState) (hst : st.isOpen = false) : s.KeepsSessions (s.endSession p st) :=
  (s.endSession_spec p st hst).keepsSessions hst

theorem State.severPort_keepsSessions (reason : SeverReason) : s.KeepsSessions (s.severPort p reason) := by
  unfold State.severPort
  split
  · exact s.endSession_keepsSessions p _ rfl
  · exact .refl s

theorem State.openSession_keepsSessions (a b : Word16) : s.KeepsSessions (s.openSession p a b) := by
  have opened := s.setSession_keepsSessions p
    { incarnation := incSucc (s.incarnation p)
      state := .live { clientId := a, keepalive := b, windowEnds := s.now + msUnits b } } rfl fun _ _ _ => nofun
  refine opened.trans (.of_owns rfl rfl (fun c hc => ⟨c, hc, rfl⟩) (fun _ _ => id) fun q hq => ?_)
  have : p ≠ q := by
    rintro rfl
    simp [State.isOpen, SessionState.isOpen] at hq
  simp [State.openSession, this]

theorem State.recover_keepsSessions (o : OpenSession) : s.KeepsSessions (s.recover p o) :=
  (s.setSession_keepsSessions p { s.session p with state := .live o } rfl fun _ _ _ => nofun).trans (.same rfl rfl rfl rfl rfl)

/-- A slot is freed (R24). -/
theorem State.freeSlot_keepsSessions (h : Handle) : s.KeepsSessions (s.setSlot p h .free) :=
  .of_owns rfl rfl (fun c hc => ⟨c, hc, rfl⟩)
    (fun q k hs => by
      rw [State.slot_setSlot]
      split
      · rfl
      · exact hs)
    fun _ _ => rfl

end

end Sys2Proof.Machine
end

section
/-! ## What the limits make of the sessions -/

namespace Sys2Proof.Machine

section
variable (s : State) (p : Port)

/-- What the limits in force in `s` make of the session of port `q` by `t` (R116). -/
structure State.LimitReached (s t : State) (q : Port) : Prop where
  severed : ∀ o l, (s.session q).state = .lapsed o l → s.threshold ≤ l.missCount →
    ∃ r, t.session q = { incarnation := s.incarnation q, state := .severed r } ∧ r.reason = .keepalive
      ∧ r.incarnation = s.incarnation q ∧ r.clientId = o.clientId
  recovered : ∀ o l, (s.session q).state = .lapsed o l → l.missCount < s.threshold → s.recovery ≤ l.streak →
    t.session q = { incarnation := s.incarnation q, state := .live o }
      ∧ { port := q, incarnation := s.incarnation q } ∈ t.liveReports
  lapsed : ∀ o l, (s.session q).state = .lapsed o l → l.missCount < s.threshold → l.streak < s.recovery →
    t.session q = s.session q
  unlapsed : (∀ o l, (s.session q).state ≠ .lapsed o l) → t.session q = s.session q

/-- The limits in force have reached the sessions of several ports, and no other (R116). -/
structure State.LimitsReach (s t : State) (ps : List Port) : Prop where
  supervision : s.SameSupervision t
  reached : ∀ q ∈ ps, s.LimitReached t q
  others : ∀ q, q ∉ ps → t.session q = s.session q
  reports : ∀ r ∈ s.liveReports, r ∈ t.liveReports

theorem State.applyLimits_lapsed {o : OpenSession} {l : Lapse} (hs : (s.session p).state = .lapsed o l) : s.applyLimits p =
    if s.threshold ≤ l.missCount then s.severPort p .keepalive
    else if s.recovery ≤ l.streak then s.recover p o else s := by
  unfold State.applyLimits
  rw [hs]

theorem State.applyLimits_unlapsed (hs : ∀ o l, (s.session p).state ≠ .lapsed o l) : s.applyLimits p = s := by
  unfold State.applyLimits
  split
  · next o l h => exact absurd h (hs o l)
  · rfl

theorem State.applyLimits_reaches : s.LimitsReach (s.applyLimits p) [p] := by
  by_cases hs : ∃ o l, (s.session p).state = .lapsed o l
  · obtain ⟨o, l, hs⟩ := hs
    have same : ∀ {o' l'}, (s.session p).state = .lapsed o' l' → o' = o ∧ l' = l := fun h => by
      rw [hs] at h; cases h; exact ⟨rfl, rfl⟩
    rw [s.applyLimits_lapsed p hs]
    split
    · next hm =>
      have ended := s.severPort_spec p .keepalive o (by rw [hs]; rfl)
      refine ⟨ended.supervision, fun q hq => ?_, fun q hq => ended.sessions q (by simpa using hq),
        fun r hr => ended.liveReports ▸ hr⟩
      cases List.mem_singleton.mp hq
      refine ⟨fun o' l' h _ => ?_, fun o' l' h hlt => ?_, fun o' l' h hlt => ?_, fun h => absurd hs (h o l)⟩ <;>
        obtain ⟨rfl, rfl⟩ := same h
      · exact ⟨_, ended.session, rfl, rfl, rfl⟩
      · omega
      · omega
    · next hm =>
      split
      · next hr =>
        refine ⟨⟨rfl, rfl, rfl, rfl, rfl⟩, fun q hq => ?_, fun q hq => ?_, fun r => List.mem_append_left _⟩
        · cases List.mem_singleton.mp hq
          refine ⟨fun o' l' h hle => ?_, fun o' l' h _ _ => ?_, fun o' l' h _ hlt => ?_, fun h => absurd hs (h o l)⟩ <;>
            obtain ⟨rfl, rfl⟩ := same h
          · exact absurd hle hm
          · exact ⟨(s.setSessionState_session p p _).trans (if_pos rfl), List.mem_append_right _ (List.mem_singleton.mpr rfl)⟩
          · omega
        · exact (s.setSessionState_session p q _).trans (if_neg (by simpa using Ne.symm (by simpa using hq)))
      · next hr =>
        refine ⟨.refl s, fun q hq => ?_, fun _ _ => rfl, fun _ => id⟩
        cases List.mem_singleton.mp hq
        refine ⟨fun o' l' h hle => ?_, fun o' l' h _ hle => ?_, fun _ _ _ _ _ => rfl, fun _ => rfl⟩ <;>
          obtain ⟨rfl, rfl⟩ := same h
        · exact absurd hle hm
        · exact absurd hle hr
  · push Not at hs
    rw [s.applyLimits_unlapsed p hs]
    refine ⟨.refl s, fun q hq => ?_, fun _ _ => rfl, fun _ => id⟩
    cases List.mem_singleton.mp hq
    exact ⟨fun o l h => absurd h (hs o l), fun o l h => absurd h (hs o l), fun _ _ _ _ _ => rfl, fun _ => rfl⟩

/-- A session that the limits leave LAPSED has fewer misses than the threshold (R115, R116). -/
theorem State.LimitReached.misses {s t : State} {q : Port} (a : s.LimitReached t q) {o : OpenSession} {l : Lapse}
    (h : (t.session q).state = .lapsed o l) : (s.session q).state = .lapsed o l ∧ l.missCount < s.threshold := by
  by_cases hs : ∃ o l, (s.session q).state = .lapsed o l
  · obtain ⟨o', l', hs⟩ := hs
    rcases Nat.lt_or_ge l'.missCount s.threshold with hm | hm
    · rcases Nat.lt_or_ge l'.streak s.recovery with hr | hr
      · rw [a.lapsed o' l' hs hm hr] at h
        refine ⟨h, ?_⟩
        rw [hs] at h; cases h
        exact hm
      · rw [(a.recovered o' l' hs hm hr).1] at h; cases h
    · obtain ⟨r, e, -⟩ := a.severed o' l' hs hm
      rw [e] at h; cases h
  · push Not at hs
    rw [a.unlapsed hs] at h
    exact absurd h (hs o l)

/-- The Session Controller examines the sessions one by one, and each for itself (R116). -/
theorem State.LimitsReach.cons {s u t : State} {p : Port} {ps : List Port} (a : s.LimitsReach u [p]) (b : u.LimitsReach t ps)
    (hp : p ∉ ps) : s.LimitsReach t (p :: ps) := by
  refine ⟨a.supervision.trans b.supervision, fun q hq => ?_, fun q hq => ?_, fun r hr => b.reports r (a.reports r hr)⟩
  · by_cases e : q = p
    · subst e
      obtain ⟨h1, h2, h3, h4⟩ := a.reached q (List.mem_singleton.mpr rfl)
      have session := b.others q hp
      exact ⟨fun o l h hm => session ▸ h1 o l h hm, fun o l h hm hr => (h2 o l h hm hr).imp session.trans (b.reports _),
        fun o l h hm hr => session.trans (h3 o l h hm hr), fun h => session.trans (h4 h)⟩
    · obtain ⟨h1, h2, h3, h4⟩ := b.reached q ((List.mem_cons.mp hq).resolve_left e)
      have session := a.others q (by simpa using e)
      simp only [State.incarnation, session, a.supervision.threshold, a.supervision.recovery] at h1 h2 h3 h4
      exact ⟨h1, h2, h3, h4⟩
  · rw [List.mem_cons, not_or] at hq
    exact (b.others q hq.2).trans (a.others q (by simpa using hq.1))

theorem State.foldl_applyLimits_reach (ps : List Port) (hn : ps.Nodup) (s : State) :
    s.LimitsReach (ps.foldl State.applyLimits s) ps := by
  induction ps generalizing s with
  | nil => exact ⟨.refl s, fun _ => nofun, fun _ _ => rfl, fun _ => id⟩
  | cons p ps ih =>
    obtain ⟨hp, hn⟩ := List.nodup_cons.mp hn
    exact (s.applyLimits_reaches p).cons (ih hn _) hp

/-- The state in which SET_LIMITS has stored the limits (R154). -/
def State.withLimits (threshold recovery filterTime : Nat) : State :=
  { s with threshold := threshold, recovery := recovery, filterTime := filterTime }

theorem State.limitsEvent_reach (a b c : Nat) : (s.withLimits a b c).LimitsReach (s.limitsEvent a b c) (List.finRange 6) :=
  State.foldl_applyLimits_reach _ (List.nodup_finRange 6) _

theorem State.applyLimits_keepsSessions : s.KeepsSessions (s.applyLimits p) := by
  unfold State.applyLimits
  split
  · split
    · exact s.severPort_keepsSessions p _
    · split
      · exact s.recover_keepsSessions p _
      · exact .refl s
  · exact .refl s

theorem State.limitsEvent_keepsSessions {a : Nat} (ha : 1 ≤ a) (b c : Nat) : s.KeepsSessions (s.limitsEvent a b c) := by
  refine ⟨fun law => ?_, fun law => ?_⟩
  · exact (State.KeepsSessions.foldl _ State.applyLimits_keepsSessions _ (s.withLimits a b c)).closed law
  · obtain ⟨⟨-, -, threshold, -, -⟩, reached, -, -⟩ := s.limitsEvent_reach a b c
    refine ⟨threshold.symm ▸ ha, fun q o l h => ?_⟩
    obtain ⟨before, below⟩ := (reached q (List.mem_finRange q)).misses h
    exact ⟨(law.misses q o l before).1, threshold.symm ▸ below⟩

end

end Sys2Proof.Machine
end

section
/-! ## The laws of the sessions -/

namespace Sys2Proof.Machine

/-! ### Requests -/

section
variable (s : State) (p : Port)

theorem State.sessionChecks_passed {f : Frame} (h : ∀ c ∈ s.sessionChecks p f, c.1 = false) : s.isOpen p = true := by
  simp only [State.sessionChecks, List.mem_cons, or_imp, forall_and, forall_eq] at h
  obtain ⟨idle, severed, -⟩ := h
  rw [State.isOpen]
  cases hs : (s.session p).state with
  | idle => simp [hs] at idle
  | severed r => simp [hs] at severed
  | live | lapsed => rfl

theorem State.changeMode_keepsSessions (m : DeviceMode) : s.KeepsSessions (s.changeMode m) := .same rfl rfl rfl rfl rfl

theorem State.drainToSetup_keepsSessions : s.KeepsSessions s.drainToSetup :=
  .trans (t := { s with mode := .setup }) (.same rfl rfl rfl rfl rfl) (State.notifyMode_tableEvent _ _).keepsSessions

theorem State.setModeEvent_keepsSessions (m : DeviceMode) : s.KeepsSessions (s.setModeEvent m) := by
  have service : s.KeepsSessions s.enterService :=
    (s.changeMode_keepsSessions .service).trans
      ((State.notifyMode_tableEvent _ _).trans (State.evaluate_tableEvent _ _)).keepsSessions
  have quiesce : s.KeepsSessions s.enterQuiesce := by
    have drain := (s.changeMode_keepsSessions .quiesce).trans
      (((State.notifyMode_tableEvent _ .quiesce).trans (State.withdrawAll_tableEvent _)).trans
        (State.evaluate_tableEvent _ (s.losers fun c => c.state.isWaiting))).keepsSessions
    unfold State.enterQuiesce
    dsimp only
    split
    · exact drain.trans (State.drainToSetup_keepsSessions _)
    · exact drain
  unfold State.setModeEvent
  split
  · exact service
  · exact service
  · exact quiesce
  · exact .refl s

/-- RESTART severs every open session and leaves no port anything (R53, R126, R142). -/
theorem State.restartEvent_keepsSessions : s.KeepsSessions s.restartEvent := by
  have restarts := s.restartEvent_restartsTo
  refine ⟨fun law q _ => ⟨by simp [restarts.claims], restarts.slot q, ?_⟩,
    fun law => law.of_sessions restarts.keeps.threshold fun q o l h => ⟨o, l, ?_, rfl⟩⟩
  · rw [restarts.queue, State.restartedQueue]
    split
    · rfl
    · next hs => exact (law q (by simpa using hs)).2.2
  · rw [restarts.session, State.restartedSession] at h
    split at h
    · cases h
    · exact h

/-- A CLAIM is filed by an open session (R104). -/
theorem State.accept_keepsSessions (ho : s.isOpen p = true) (h : Handle) (items : List Item) (limit : Word16) :
    s.KeepsSessions (s.accept p h items limit) := by
  have filed : s.KeepsSessions (s.fileRequest p h items limit) := by
    refine ⟨fun law q hq => ?_, fun law => ⟨law.threshold, law.misses⟩⟩
    have ne : p ≠ q := by
      rintro rfl
      exact absurd (ho.symm.trans hq) (by simp)
    obtain ⟨noClaims, free, empty⟩ := law q hq
    refine ⟨fun c hc => ?_, fun k => ?_, empty⟩
    · rcases List.mem_append.mp hc with hc | hc
      · exact noClaims c hc
      · obtain ⟨i, -, rfl⟩ := List.mem_map.mp hc
        exact ne
    · rw [State.fileRequest, State.slot_setSlot, if_neg fun e => ne e.1]
      exact free k
  exact filed.trans ((State.TableEvent.foldl _ (fun s x => s.beginYield_tableEvent x _) _ _).trans
    (State.evaluateWith_tableEvent _ _ _)).keepsSessions

theorem State.fetch_keepsSessions (ho : s.isOpen p = true) (q : NoticeQueue) (acks : List AckEvent) :
    s.KeepsSessions { s.setQueue p q with ackEvents := acks } := by
  refine .of_owns rfl rfl (fun c hc => ⟨c, hc, rfl⟩) (fun _ _ => id) fun k hk => ?_
  have : p ≠ k := by
    rintro rfl
    exact absurd (ho.symm.trans hk) (by simp)
  exact (State.queue_setQueue s p k q).trans (if_neg this)
end

/-- An executed request keeps the laws of the sessions. -/
theorem RequestKind.verdict_keepsSessions {k : RequestKind} {p : Port} {f : Frame} {s t : State} {st : Status}
    {body : List Byte} (h : k.verdict p f s = .executed st body t) : s.KeepsSessions t := by
  cases k with
  | join =>
    obtain ⟨-, h⟩ := Verdict.checked_executed h; cases h
    exact (s.severPort_keepsSessions p .rejoin).trans (State.openSession_keepsSessions _ p _ _)
  | leave =>
    obtain ⟨-, h⟩ := Verdict.checked_executed h; cases h
    exact s.endSession_keepsSessions p .idle rfl
  | touch | sessionInfo | resourceInfo | holdings | partInfo =>
    obtain ⟨-, h⟩ := Verdict.checked_executed h; cases h
    exact .refl s
  | setRate | setSupervisor | define | undefine =>
    obtain ⟨-, h⟩ := Verdict.checked_executed h; cases h
    exact .same rfl rfl rfl rfl rfl
  | fetch =>
    obtain ⟨hc, h⟩ := Verdict.checked_executed h; cases h
    exact s.fetch_keepsSessions p (s.sessionChecks_passed p fun c h => hc c (List.mem_append_left _ h)) _ _
  | claim =>
    obtain ⟨hc, h⟩ := Verdict.checked_executed h
    have ho := s.sessionChecks_passed p fun c h => hc c (List.mem_append_left _ h)
    unfold acceptedAnswer at h
    split at h <;> cases h <;> exact s.accept_keepsSessions p ho _ _ _
  | cancel =>
    obtain ⟨hc, h⟩ := Verdict.checked_executed h; cases h
    simp only [List.mem_append, List.mem_cons, or_imp, forall_and, forall_eq] at hc
    obtain ⟨-, -, hopen, -⟩ := hc
    rw [State.cancelRequest_eq]
    exact ((s.dropped_tableEvent p _ (by simpa using hopen)).trans (State.evaluate_tableEvent _ _)).keepsSessions
  | release =>
    obtain ⟨-, h⟩ := Verdict.checked_executed h; cases h
    exact (s.removeAndEvaluate_tableEvent _).keepsSessions
  | setLimits =>
    obtain ⟨hc, h⟩ := Verdict.checked_executed h; cases h
    simp only [List.mem_append, List.mem_cons, or_imp, forall_and, forall_eq] at hc
    obtain ⟨-, -, hlimit, -⟩ := hc
    simp only [badLimit, Bool.or_eq_false_iff, beq_eq_false_iff_ne] at hlimit
    exact s.limitsEvent_keepsSessions (Nat.one_le_iff_ne_zero.mpr hlimit.1.1) _ _
  | setMode =>
    obtain ⟨-, h⟩ := Verdict.checked_executed h; cases h
    exact s.setModeEvent_keepsSessions _
  | forceRelease =>
    obtain ⟨-, h⟩ := Verdict.checked_executed h; cases h
    exact (s.forceReleaseEvent_tableEvent _).keepsSessions
  | disable =>
    obtain ⟨-, h⟩ := Verdict.checked_executed h; cases h
    exact (s.disableEvent_tableEvent _).keepsSessions
  | clearFault =>
    obtain ⟨-, h⟩ := Verdict.checked_executed h; cases h
    exact (s.clearFaultEvent_tableEvent _).keepsSessions
  | sever =>
    obtain ⟨-, h⟩ := Verdict.checked_executed h; cases h
    exact s.severPort_keepsSessions _ .supervisor
  | restart =>
    obtain ⟨-, h⟩ := Verdict.checked_executed h; cases h
    exact s.restartEvent_keepsSessions
section
variable (s : State)

theorem State.taking_keepsSessions (k : RequestKind) (p : Port) (f : Frame) : s.KeepsSessions (s.taking k p f) := by
  obtain ⟨u, seen, e⟩ := s.taking_seen k p f
  rw [e]
  exact seen.keepsSessions.trans (.same (by simp) (by simp) (by simp) (by simp) (by simp))

theorem State.endOfServe_keepsSessions (o : Owner) : s.KeepsSessions (s.endOfServe o) := by
  cases o with
  | claimTable => exact s.endOfEvent_keepsSessions
  | sessionController | noticeStore | supervision | portInterface => exact .refl s

theorem State.place_keepsSessions (p : Port) (f : Frame) (st : Status) (body : List Byte) (ex : Bool) :
    s.KeepsSessions (s.place p f st body ex) := s.setPort_keepsSessions p _

theorem RequestKind.keepsSessions (k : RequestKind) (p : Port) : s.KeepsSessions (s.serve k p (k.verdict p)) := by
  by_cases h : ∃ f, s.Offered k p f
  · obtain ⟨f, hf⟩ := h
    rw [State.serve_offered hf]
    refine (s.taking_keepsSessions k p f).trans ?_
    cases hv : k.verdict p f (s.taking k p f) with
    | refused st => exact (State.endOfServe_keepsSessions _ _).trans (State.place_keepsSessions _ p f st _ _)
    | executed st body t =>
      exact (RequestKind.verdict_keepsSessions hv).trans
        ((t.endOfServe_keepsSessions k.owner).trans (State.place_keepsSessions _ p f st body true))
  · rw [State.serve_not_offered fun f hf => h ⟨f, hf⟩]
    exact .refl s

/-! ### The Claim Table's internal events -/

variable (p : Port) (x : ResNo)

theorem State.dropReport_keepsSessions : s.KeepsSessions (s.dropReport x) := .same rfl rfl rfl rfl rfl

theorem State.confirmationFault_tableEvent (reason : FaultReason) : s.TableEvent (s.confirmationFault x reason) :=
  ((s.faultResource_tableEvent x reason).trans (State.failAll_tableEvent _ _ _ _)).trans (State.evaluate_tableEvent _ _)

theorem State.completeItem_tableEvent (h : Handle) : s.TableEvent (s.completeItem p h x) := by
  unfold State.completeItem
  split
  · next f pend hs =>
    split
    · have completed := s.setSlot_tableEvent p h (.assembling f (pend.erase x)) (by rw [hs]; rfl)
      dsimp only
      split
      · exact (completed.trans (State.grant_tableEvent none _ p h)).trans (State.evaluate_tableEvent _ _)
      · exact completed
    · exact .refl s
  · exact .refl s

theorem State.onGuardElapsed_keepsSessions : s.KeepsSessions (State.onGuardElapsed x s) := by
  unfold State.onGuardElapsed
  split
  · exact (s.setLineState_lineOrder x _).keepsSessions
  · next k _ _ => exact (s.engageOrVerify_lineOrder x k).keepsSessions.trans (State.evaluate_tableEvent _ _).keepsSessions
  · exact .refl s

theorem State.onReleaseSeen_keepsSessions : s.KeepsSessions (State.onReleaseSeen x s) := by
  unfold State.onReleaseSeen
  split
  · next k _ _ => exact (s.beginEngage_lineOrder x k).keepsSessions.trans (State.evaluate_tableEvent _ _).keepsSessions
  · exact .refl s

theorem State.onVerifyTimeout_tableEvent : s.TableEvent (State.onVerifyTimeout x s) := by
  unfold State.onVerifyTimeout
  split
  · exact s.confirmationFault_tableEvent x _
  · exact .refl s

theorem State.onEngagedSeen_tableEvent : s.TableEvent (State.onEngagedSeen x s) := by
  unfold State.onEngagedSeen
  split
  · exact s.completeItem_tableEvent _ x _
  · exact .refl s

theorem State.onEngageTimeout_tableEvent : s.TableEvent (State.onEngageTimeout x s) := by
  unfold State.onEngageTimeout
  split
  · exact s.confirmationFault_tableEvent x _
  · exact .refl s

theorem State.onConfirmationLost_tableEvent : s.TableEvent (State.onConfirmationLost x s) := by
  unfold State.onConfirmationLost
  split
  · exact ((s.faultResource_tableEvent x _).trans (State.revoke_tableEvent _ x _ _)).trans (State.evaluate_tableEvent _ _)
  · exact s.confirmationFault_tableEvent x _
  · exact .refl s

theorem State.takeReport_keepsSessions (k : LineReportKind) (act : State → State) (ha : ∀ u : State, u.KeepsSessions (act u)) :
    s.KeepsSessions (s.takeReport x k act) := by
  unfold State.takeReport
  split
  · exact .refl s
  · refine .trans ?_ (State.endOfEvent_keepsSessions _)
    split
    · exact (s.dropReport_keepsSessions x).trans (ha _)
    · exact s.dropReport_keepsSessions x

theorem liveAgain_keepsSessions : ∃ t, execLiveAgain p s = .next t ∧ s.KeepsSessions t := by
  refine ⟨_, rfl, ?_⟩
  split
  · exact .refl s
  · have taken : s.KeepsSessions { s with liveReports := s.liveReports.eraseP (·.port == p) } := .same rfl rfl rfl rfl rfl
    exact (taken.trans (State.evaluate_tableEvent _ _).keepsSessions).trans (State.endOfEvent_keepsSessions _)

theorem State.acknowledge_keepsSessions (a : AckEvent) : s.KeepsSessions (s.acknowledge a) := by
  unfold State.acknowledge
  split
  · split
    · exact s.freeSlot_keepsSessions _ _
    · exact .refl s
  · exact .refl s

theorem outcomeAcknowledged_keepsSessions (h : Handle) : ∃ t, execOutcomeAcknowledged p h s = .next t ∧ s.KeepsSessions t := by
  refine ⟨_, rfl, ?_⟩
  split
  · exact .refl s
  · next a _ =>
    have taken : s.KeepsSessions { s with ackEvents := s.ackEvents.eraseP fun a => a.port == p && a.handle == h } :=
      .same rfl rfl rfl rfl rfl
    exact (taken.trans (State.acknowledge_keepsSessions _ a)).trans (State.endOfEvent_keepsSessions _)

theorem noClaimsRemain_keepsSessions : ∃ t, execNoClaimsRemain s = .next t ∧ s.KeepsSessions t := by
  refine ⟨_, rfl, ?_⟩
  split
  · exact .refl s
  · next current rest _ =>
    have taken : s.KeepsSessions { s with drainReports := rest } := .same rfl rfl rfl rfl rfl
    dsimp only
    split
    · exact taken.trans (State.drainToSetup_keepsSessions _)
    · exact taken

theorem waitExpiry_keepsSessions (h : Handle) : ∃ t, execWaitExpiry p h s = .next t ∧ s.KeepsSessions t := by
  refine ⟨_, rfl, ?_⟩
  split
  · next T _ =>
    exact ((s.passTo_keepsSessions T).trans ((State.endRequest_tableEvent _ p h _ _).trans
      (State.evaluate_tableEvent _ _)).keepsSessions).trans (State.endOfEvent_keepsSessions _)
  · exact .refl s

theorem State.setOvertime_keepsSessions : s.KeepsSessions (s.setOvertime p x) := by
  refine .of_owns rfl rfl (fun c hc => ?_) (fun _ _ => id) fun _ _ => rfl
  obtain ⟨d, hd, rfl⟩ := List.mem_map.mp hc
  refine ⟨d, hd, ?_⟩
  split <;> rfl

theorem holdExpiry_keepsSessions : ∃ t, execHoldExpiry p x s = .next t ∧ s.KeepsSessions t := by
  refine ⟨_, rfl, ?_⟩
  split
  · next T _ =>
    have overtime := (s.passTo_keepsSessions T).trans (State.setOvertime_keepsSessions _ p x)
    dsimp only
    refine .trans ?_ (State.endOfEvent_keepsSessions _)
    split
    · exact overtime
    · exact overtime.trans ((State.beginYield_tableEvent _ x _).trans (State.evaluate_tableEvent _ _)).keepsSessions
  · exact .refl s

theorem graceExpiry_keepsSessions : ∃ t, execGraceExpiry p x s = .next t ∧ s.KeepsSessions t := by
  refine ⟨_, rfl, ?_⟩
  split
  · next T _ =>
    exact ((s.passTo_keepsSessions T).trans ((State.revoke_tableEvent _ x _ _).trans
      (State.evaluate_tableEvent _ _)).keepsSessions).trans (State.endOfEvent_keepsSessions _)
  · exact .refl s

/-! ### The Line Unit -/

theorem phaseTimerExpiry_keepsSessions : ∃ t, execPhaseTimerExpiry x s = .next t ∧ s.KeepsSessions t := by
  refine ⟨_, rfl, ?_⟩
  split
  · next T k _ => exact (s.passTo_keepsSessions T).trans (State.phaseReport_lineOrder _ x .quiet k).keepsSessions
  · exact .refl s

theorem confirmFilterChange_keepsSessions (c : ConfNo) : ∃ t, execConfirmFilterChange c s = .next t ∧ s.KeepsSessions t := by
  refine ⟨_, rfl, ?_⟩
  split
  · exact .refl s
  · next T _ =>
    have met := (State.meetLevels_rest c (List.finRange 64) ((s.passTo T).setConfirm c s.confirmInputs[c].settle)).1
    exact .same met.outside.sessions met.outside.threshold met.claims met.slots met.queues

/-! ### Sessions -/

theorem windowExpiry_keepsSessions : ∃ t, execWindowExpiry p s = .next t ∧ s.KeepsSessions t := by
  refine ⟨_, rfl, ?_⟩
  split
  · next o _ =>
    refine (s.passTo_keepsSessions o.windowEnds).trans ?_
    unfold State.missFirst
    split
    · exact State.severPort_keepsSessions _ p _
    · next ht =>
      refine State.setSession_keepsSessions _ p _ rfl fun _ _ _ h => ?_
      cases h
      exact ⟨le_refl _, Nat.lt_of_not_le ht⟩
  · next o l hs =>
    refine (s.passTo_keepsSessions o.windowEnds).trans ?_
    split
    · unfold State.windowShown
      split
      · exact State.recover_keepsSessions _ p _
      · refine State.setSession_keepsSessions _ p _ rfl fun law _ _ h => ?_
        cases h
        exact law.misses p o l hs
    · unfold State.windowMissed
      split
      · exact State.severPort_keepsSessions _ p _
      · next ht =>
        refine State.setSession_keepsSessions _ p _ rfl fun _ _ _ h => ?_
        cases h
        exact ⟨Nat.le_add_left 1 _, Nat.lt_of_not_le ht⟩
  · exact .refl s

theorem severInputFiltered_keepsSessions : ∃ t, execSeverInputFiltered p s = .next t ∧ s.KeepsSessions t := by
  refine ⟨_, rfl, ?_⟩
  split
  · exact .refl s
  · next T _ =>
    have settled : s.KeepsSessions ((s.passTo T).setSever p s.severInputs[p].settle) := .same rfl rfl rfl rfl rfl
    dsimp only
    split
    · exact settled.trans (State.severPort_keepsSessions _ p _)
    · exact settled

theorem frameReport_keepsSessions : ∃ t, execFrameReport p s = .next t ∧ s.KeepsSessions t := by
  refine ⟨_, rfl, ?_⟩
  split
  · exact (s.setPort_keepsSessions p _).trans (State.seeFrame_seen _ p _).keepsSessions
  · exact .refl s

/-! ### Port Interfaces and the reset -/

theorem breakDetected_keepsSessions : ∃ t, execBreakDetected p s = .next t ∧ s.KeepsSessions t := by
  refine ⟨_, rfl, ?_⟩
  split
  · next since _ =>
    exact ((s.passTo_keepsSessions (since + Config.breakUnits)).trans (State.setPort_keepsSessions _ p _)).trans
      (State.severPort_keepsSessions _ p _)
  · exact .refl s

theorem State.takeFrame_keepsSessions (f : Frame) : s.KeepsSessions (s.takeFrame p f) := by
  unfold State.takeFrame
  split
  · exact s.setPort_keepsSessions p _
  · split
    · exact s.place_keepsSessions p f _ _ _
    · exact s.setPort_keepsSessions p _

theorem takeRequest_keepsSessions : ∃ t, execTakeRequest p s = .next t ∧ s.KeepsSessions t := by
  refine ⟨_, rfl, ?_⟩
  split
  · split
    · exact (s.setPort_keepsSessions p _).trans (State.takeFrame_keepsSessions _ p _)
    · exact .refl s
  · exact .refl s

theorem pinReset_keepsSessions : ∃ t, execPinReset s = .next t ∧ s.KeepsSessions t := by
  refine ⟨_, rfl, fun _ q _ => ⟨fun c hc => ?_, fun h => ?_, ?_⟩,
    fun _ => ⟨show 1 ≤ Config.resetThreshold by decide, fun q o l h => ?_⟩⟩
  · cases hc
  · simp [State.afterReset, State.slot]
  · simp [State.afterReset, State.queue]
  · simp [State.afterReset, State.session] at h
end

theorem exec_keepsSessions (i : Instr) (s : State) : ∃ t, exec i s = .next t ∧ s.KeepsSessions t := by
  have request : ∀ (k : RequestKind) p, ∃ t, exec (k.command p) s = .next t ∧ s.KeepsSessions t := fun k p =>
    ⟨_, exec_command k p s, k.keepsSessions s p⟩
  have report : ∀ (x : ResNo) (k : LineReportKind) (act : State → State), (∀ u : State, u.KeepsSessions (act u)) →
      s.KeepsSessions (s.takeReport x k act) := fun x k act ha => s.takeReport_keepsSessions x k act ha
  cases i with
  | join p => exact request .join p
  | leave p => exact request .leave p
  | touch p => exact request .touch p
  | setRate p => exact request .setRate p
  | claim p => exact request .claim p
  | cancel p => exact request .cancel p
  | release p => exact request .release p
  | fetch p => exact request .fetch p
  | sessionInfo p => exact request .sessionInfo p
  | resourceInfo p => exact request .resourceInfo p
  | holdings p => exact request .holdings p
  | partInfo p => exact request .partInfo p
  | define p => exact request .define p
  | undefine p => exact request .undefine p
  | setLimits p => exact request .setLimits p
  | setMode p => exact request .setMode p
  | setSupervisor p => exact request .setSupervisor p
  | forceRelease p => exact request .forceRelease p
  | disable p => exact request .disable p
  | clearFault p => exact request .clearFault p
  | sever p => exact request .sever p
  | restart p => exact request .restart p
  | frameComplete p => exact ⟨_, rfl, by split <;> exact .same rfl rfl rfl rfl rfl⟩
  | silenceLimit p => exact ⟨_, rfl, by split <;> exact .same rfl rfl rfl rfl rfl⟩
  | takeRequest p => exact takeRequest_keepsSessions s p
  | replySent p => exact ⟨_, rfl, by split <;> exact .same rfl rfl rfl rfl rfl⟩
  | breakDetected p => exact breakDetected_keepsSessions s p
  | frameReport p => exact frameReport_keepsSessions s p
  | windowExpiry p => exact windowExpiry_keepsSessions s p
  | severInputChange p b => exact ⟨_, rfl, .same rfl rfl rfl rfl rfl⟩
  | severInputFiltered p => exact severInputFiltered_keepsSessions s p
  | liveAgain p => exact liveAgain_keepsSessions s p
  | outcomeAcknowledged p h => exact outcomeAcknowledged_keepsSessions s p h
  | noClaimsRemain => exact noClaimsRemain_keepsSessions s
  | waitExpiry p h => exact waitExpiry_keepsSessions s p h
  | holdExpiry p x => exact holdExpiry_keepsSessions s p x
  | graceExpiry p x => exact graceExpiry_keepsSessions s p x
  | phaseTimerExpiry x => exact phaseTimerExpiry_keepsSessions s x
  | confirmInputChange c b => exact ⟨_, rfl, .same rfl rfl rfl rfl rfl⟩
  | confirmFilterChange c => exact confirmFilterChange_keepsSessions s c
  | guardElapsed x => exact ⟨_, rfl, report x _ _ fun u => u.onGuardElapsed_keepsSessions x⟩
  | releaseSeen x => exact ⟨_, rfl, report x _ _ fun u => u.onReleaseSeen_keepsSessions x⟩
  | verifyTimeout x => exact ⟨_, rfl, report x _ _ fun u => (u.onVerifyTimeout_tableEvent x).keepsSessions⟩
  | engagedSeen x => exact ⟨_, rfl, report x _ _ fun u => (u.onEngagedSeen_tableEvent x).keepsSessions⟩
  | engageTimeout x => exact ⟨_, rfl, report x _ _ fun u => (u.onEngageTimeout_tableEvent x).keepsSessions⟩
  | confirmationLost x => exact ⟨_, rfl, report x _ _ fun u => (u.onConfirmationLost_tableEvent x).keepsSessions⟩
  | pinReset => exact pinReset_keepsSessions s
  | characterReceived p c => exact ⟨_, rfl, by split <;> exact .same rfl rfl rfl rfl rfl⟩
  | framingError p => exact ⟨_, rfl, by split <;> exact .same rfl rfl rfl rfl rfl⟩
  | receiveLineChange p a b => exact ⟨_, rfl, s.setPort_keepsSessions p _⟩

/-- Every step keeps the laws of the sessions: the command at the front of the queue, the timer that is due, or the time
alone. -/
theorem step_keepsSessions {s t : State} (h : step s = .next t) : s.KeepsSessions t := by
  have run : ∀ (i : Instr) (u : State), exec i u = .next t → u.KeepsSessions t := by
    intro i u hu
    obtain ⟨t', ht, he⟩ := exec_keepsSessions i u
    rw [ht] at hu; cases hu
    exact he
  unfold step at h
  split at h
  · next i rest _ => exact .trans (t := { s with pending := rest }) (.same rfl rfl rfl rfl rfl) (run _ _ h)
  · unfold State.idle at h
    split at h
    · exact run _ s h
    · cases h
      exact .same rfl rfl rfl rfl rfl

/-- Settles O55: every command keeps the laws of the sessions (`exec_keepsSessions`). -/
theorem stepsKeepTheSessionLaws : Obligations.StepsKeepTheSessionLaws :=
  ⟨fun _ _ law h => (step_keepsSessions h).closed law, fun _ _ law h => (step_keepsSessions h).misses law⟩

end Sys2Proof.Machine
end

section
/-! ## The session, permission and mode checks -/

namespace Sys2Proof.Machine

section
variable {s : State} {k : RequestKind} {p : Port} {f : Frame} {st : Status} {r : SeverReport}

/-! ### The session check -/

theorem State.sessionChecks_idle (hs : (s.session p).state = .idle) : firstRefusal (s.sessionChecks p f) = some .noSession := by
  simp [State.sessionChecks, firstRefusal, hs]

theorem State.sessionChecks_severed (hs : (s.session p).state = .severed r) :
    firstRefusal (s.sessionChecks p f) = some .sessionSevered := by
  simp [State.sessionChecks, firstRefusal, hs]

theorem State.sessionChecks_stale (ho : s.isOpen p = true) (hi : f.inc ≠ s.incarnation p) :
    firstRefusal (s.sessionChecks p f) = some .staleSession := by
  rw [State.isOpen] at ho
  cases hs : (s.session p).state with
  | idle | severed => rw [hs] at ho; cases ho
  | live | lapsed => simp [State.sessionChecks, firstRefusal, hs, hi]

theorem State.partInfoChecks_severed (hs : (s.session p).state = .severed r) :
    firstRefusal (s.partInfoChecks p f) = some .sessionSevered := by
  simp [State.partInfoChecks, firstRefusal, hs]

theorem State.partInfoChecks_stale (ho : s.isOpen p = true) (hi : f.inc ≠ s.incarnation p) :
    firstRefusal (s.partInfoChecks p f) = some .staleSession := by
  have hs := ho
  rw [State.isOpen] at hs
  cases h : (s.session p).state with
  | idle | severed => rw [h] at hs; cases hs
  | live | lapsed => simp [State.partInfoChecks, firstRefusal, h, ho, hi]

theorem State.isOpen_severed (hs : (s.session p).state = .severed r) : s.isOpen p = false := by
  rw [State.isOpen, hs]; rfl

/-- A SEVERED port's requests, but JOIN, are refused (R104). -/
theorem RequestKind.verdict_severed (hj : k ≠ .join) (hs : (s.session p).state = .severed r) :
    k.verdict p f s = .refused .sessionSevered := by
  by_cases hk : k = .partInfo
  · subst hk; exact Verdict.checked_some (State.partInfoChecks_severed hs)
  · exact RequestKind.verdict_session hj hk (State.sessionChecks_severed hs)

/-- Requests of a past session, but JOIN, are refused (R104). -/
theorem RequestKind.verdict_stale (hj : k ≠ .join) (ho : s.isOpen p = true) (hi : f.inc ≠ s.incarnation p) :
    k.verdict p f s = .refused .staleSession := by
  by_cases hk : k = .partInfo
  · subst hk; exact Verdict.checked_some (State.partInfoChecks_stale ho hi)
  · exact RequestKind.verdict_session hj hk (State.sessionChecks_stale ho hi)

/-! ### The permission and mode checks -/

theorem State.OpenFor.not_permitted (ho : s.OpenFor p f) (hp : p ≠ s.supervisor) :
    firstRefusal (s.supervisorChecks p f) = some .notPermitted := by
  rw [State.supervisorChecks, firstRefusal_append, State.sessionChecks_open ho]
  simp [firstRefusal, hp]

theorem State.OpenFor.claim_wrongMode (ho : s.OpenFor p f) (hm : s.mode ≠ .service) :
    RequestKind.claim.verdict p f s = .refused .wrongMode := by
  refine (Verdict.checked_append (State.sessionChecks_open ho)).trans ?_
  rw [State.modeCheck, Verdict.checked_cons, if_pos (by simpa using hm)]

/-- The supervisor's requests that need SETUP are refused in another mode (R144). -/
theorem State.OpenFor.setup_wrongMode (ho : s.OpenFor p f) (hp : p = s.supervisor)
    (hk : k = .define ∨ k = .undefine ∨ k = .setLimits) (hm : s.mode ≠ .setup) : k.verdict p f s = .refused .wrongMode := by
  have passed := State.supervisorChecks_open ho hp
  have refused : ∀ cs go, Verdict.checked (s.supervisorChecks p f ++ s.modeCheck .setup :: cs) go = .refused .wrongMode :=
    fun cs go => by
      rw [Verdict.checked_append passed, State.modeCheck, Verdict.checked_cons, if_pos (by simpa using hm)]
  rcases hk with rfl | rfl | rfl
  · exact refused _ _
  · exact refused _ _
  · exact refused _ _

/-- QUIESCE is not asked for from SETUP, nor SETUP from another mode (R146). -/
theorem modeRefused_of {m : DeviceMode} {b : Byte} (h : (m = .setup ∧ b = 2) ∨ (m ≠ .setup ∧ b = 0)) :
    modeRefused m b = true := by
  rcases h with ⟨rfl, rfl⟩ | ⟨hm, rfl⟩
  · decide
  · cases m with
    | setup => exact absurd rfl hm
    | service | quiesce => decide

theorem State.OpenFor.setMode_wrongMode (ho : s.OpenFor p f) (hp : p = s.supervisor)
    (h : (s.mode = .setup ∧ f.byte 0 = 2) ∨ (s.mode ≠ .setup ∧ f.byte 0 = 0)) :
    RequestKind.setMode.verdict p f s = .refused .wrongMode := by
  refine (Verdict.checked_append (State.supervisorChecks_open ho hp)).trans ?_
  rw [Verdict.checked_cons, if_pos (modeRefused_of h)]
end

/-- Settles O6: the session, permission and mode checks stand before all others of a request, and its verdict is the first
that fails. -/
theorem sessionPermissionAndModeRefusals : Obligations.SessionPermissionAndModeRefusals := by
  refine ⟨fun k p f s h hj => ⟨fun hs hk => ?_, fun r hs => ?_, fun ho hi => ?_⟩,
    fun k p f s h ho => ⟨fun hk hp => ?_, fun hk hm => ?_, fun hp hk hm => ?_, fun hp hk hm => ?_⟩⟩
  · have closed : s.isOpen p = false := by rw [State.isOpen, hs]; rfl
    exact h.refused (RequestKind.verdict_session hj hk
      (State.sessionChecks_idle (by rw [State.taking_session_closed _ _ _ _ closed, hs]))) nofun
  · have severed : ((s.taking k p f).session p).state = .severed r := by
      rw [State.taking_session_closed _ _ _ _ (State.isOpen_severed hs), hs]
    rw [exec_offered h, RequestKind.verdict_severed hj severed, State.answer_severed _ _ _ _ severed]
  · exact h.refused (RequestKind.verdict_stale hj (by simpa using ho) (by simpa using hi)) nofun
  · exact h.refused (RequestKind.verdict_supervisor hk (ho.taking.not_permitted (by simpa using hp))) nofun
  · subst hk
    exact h.refused (ho.taking.claim_wrongMode (by simpa using hm)) nofun
  · exact h.refused (ho.taking.setup_wrongMode (by simpa using hp) hk (by simpa using hm)) nofun
  · subst hk
    exact h.refused (ho.taking.setMode_wrongMode (by simpa using hp) (by simpa using hm)) nofun

end Sys2Proof.Machine
end

section
/-! ## The events of the Session Controller -/

namespace Sys2Proof.Machine

section
variable {s : State} {p : Port} {r : FrameReport} {rest : List FrameReport} {o : OpenSession} {l : Lapse}

/-! ### Frame reports -/

theorem exec_frameReport (hr : (s.port p).reports = r :: rest) :
    exec (.frameReport p) s = .next ((s.setPort p { s.port p with reports := rest }).seeFrame p r.inc) := by
  show execFrameReport p s = _
  unfold execFrameReport
  rw [hr]

theorem State.seeFrame_live {inc : Byte} (hi : inc = s.incarnation p) (hs : (s.session p).state = .live o) :
    s.seeFrame p inc = s.setSessionState p (.live (s.restartWindow o)) := by
  unfold State.seeFrame
  rw [if_pos hi, hs]

theorem State.seeFrame_lapsed {inc : Byte} (hi : inc = s.incarnation p) (hs : (s.session p).state = .lapsed o l) :
    s.seeFrame p inc = s.setSessionState p (.lapsed o { l with frameSeen := true }) := by
  unfold State.seeFrame
  rw [if_pos hi, hs]

theorem State.seeFrame_none {inc : Byte} (h : s.isOpen p = false ∨ inc ≠ s.incarnation p) : s.seeFrame p inc = s := by
  unfold State.seeFrame
  split
  · next hi =>
    have closed := h.resolve_right (absurd hi)
    rw [State.isOpen] at closed
    cases hs : (s.session p).state with
    | live | lapsed => rw [hs] at closed; cases closed
    | idle | severed => rfl
  · rfl
end

/-- Settles O21, by the state of the session and the incarnation of the frame. -/
theorem frameReportsActOnTheWindow : Obligations.FrameReportsActOnTheWindow := by
  intro p r rest s hr t
  rw [exec_frameReport hr]
  exact ⟨fun o hs hi => congrArg _ (State.seeFrame_live (s := t) hi hs),
    fun o l hs hi => congrArg _ (State.seeFrame_lapsed (s := t) hi hs), fun h => congrArg _ (State.seeFrame_none (s := t) h)⟩

end Sys2Proof.Machine
end

section
/-! ## The windows -/

namespace Sys2Proof.Machine

section
variable {s : State} {p : Port} {o : OpenSession} {l : Lapse}

theorem exec_windowExpiry_live (hs : (s.session p).state = .live o) :
    exec (.windowExpiry p) s = .next ((s.passTo o.windowEnds).missFirst p o) := by
  show execWindowExpiry p s = _
  unfold execWindowExpiry
  rw [hs]

theorem exec_windowExpiry_shown (hs : (s.session p).state = .lapsed o l) (hf : l.frameSeen = true) :
    exec (.windowExpiry p) s = .next ((s.passTo o.windowEnds).windowShown p o l) := by
  show execWindowExpiry p s = _
  unfold execWindowExpiry
  rw [hs]
  exact congrArg _ (if_pos hf)

theorem exec_windowExpiry_missed (hs : (s.session p).state = .lapsed o l) (hf : l.frameSeen = false) :
    exec (.windowExpiry p) s = .next ((s.passTo o.windowEnds).windowMissed p o l) := by
  show execWindowExpiry p s = _
  unfold execWindowExpiry
  rw [hs]
  exact congrArg _ (if_neg (by simp [hf]))
end

/-- Settles O22: the outcome is the branch of R112, R114 or R115 that the flag, the counts and the limits choose; a sever is
the end of the session (`State.severPort_spec`). -/
theorem windowExpiryOutcomes : Obligations.WindowExpiryOutcomes := by
  intro p o s u again severed
  have ends : ∀ {v}, (s.session p).state.opened = some o → exec (.windowExpiry p) s = .next v →
      v = (s.passTo o.windowEnds).severPort p .keepalive → severed := fun {v} hs hexec hv => by
    subst hv
    have ended := (s.passTo o.windowEnds).severPort_spec p .keepalive o hs
    exact ⟨_, hexec, ended.session, ended.noClaims, ended.freed, ended.queue, ended.port, ended.supervision, ended.inputs,
      fun q hq => ⟨ended.sessions q hq, ended.ports q hq⟩⟩
  refine ⟨fun hs ht => ?_, fun hs ht => ?_, fun l hs => ⟨fun hf hr => ?_, fun hf hr => ?_, fun hf ht => ?_, fun hf ht => ?_⟩⟩
  · exact ends (by rw [hs]; rfl) (exec_windowExpiry_live hs) (if_pos ht)
  · rw [exec_windowExpiry_live hs]
    exact congrArg _ (if_neg (Nat.not_le.mpr ht))
  · rw [exec_windowExpiry_shown hs hf]
    exact congrArg _ (if_pos hr)
  · rw [exec_windowExpiry_shown hs hf]
    exact congrArg _ (if_neg (Nat.not_le.mpr hr))
  · exact ends (by rw [hs]; rfl) (exec_windowExpiry_missed hs hf) (if_pos ht)
  · rw [exec_windowExpiry_missed hs hf]
    exact congrArg _ (if_neg (Nat.not_le.mpr ht))

end Sys2Proof.Machine
end

section
/-! ## The sever inputs -/

namespace Sys2Proof.Machine

section
variable {s : State} {p : Port}

theorem exec_severInputFiltered_settled (h : s.severInputs[p].raw = s.severInputs[p].filtered) :
    exec (.severInputFiltered p) s = .next s := by
  show execSeverInputFiltered p s = _
  unfold execSeverInputFiltered
  rw [InputFilter.due, if_pos h]

/-- The state in which the filtered level of a sever input takes its raw level (R117). -/
def State.severFiltered (s : State) (p : Port) : State :=
  (s.passTo (s.severInputs[p].changed + 100)).setSever p s.severInputs[p].settle

theorem exec_severInputFiltered (h : s.severInputs[p].raw ≠ s.severInputs[p].filtered) : exec (.severInputFiltered p) s =
    .next (if s.severInputs[p].raw then (s.severFiltered p).severPort p .pin else s.severFiltered p) := by
  show execSeverInputFiltered p s = _
  unfold execSeverInputFiltered
  rw [InputFilter.due, if_neg h]
  rfl

theorem InputFilter.settle_raw {v : InputFilter} {b : Bool} (h : v.raw = b) : v.settle = { v with filtered := b } :=
  congrArg (fun b => { v with filtered := b }) h

theorem State.opened_of_isOpen (h : s.isOpen p = true) : ∃ o, (s.session p).state.opened = some o := by
  rw [← Option.isSome_iff_exists, SessionState.opened_isSome]
  exact h
end

/-- Settles O23: the filtered level takes the raw one, and an asserted one severs an open session (`State.severPort_spec`). -/
theorem severInputsAreFiltered : Obligations.SeverInputsAreFiltered := by
  refine fun p s => ⟨fun level h => ?_, fun level h => ?_, exec_severInputFiltered_settled, fun hr hf => ?_, fun hr hf => ?_⟩
  · show execSeverInputChange p level s = _
    rw [execSeverInputChange, InputFilter.rawChange, if_neg h]
  · show execSeverInputChange p level s = _
    rw [execSeverInputChange, InputFilter.rawChange, if_pos h]
    simp [State.setSever]
  all_goals
    have differ : s.severInputs[p].raw ≠ s.severInputs[p].filtered := by rw [hr, hf]; simp
    have hexec := exec_severInputFiltered differ
  · rw [if_neg (ne_true_of_eq_false hr), State.severFiltered, InputFilter.settle_raw hr] at hexec
    exact hexec
  · rw [if_pos hr] at hexec
    refine ⟨_, hexec, ?_⟩
    have input : (s.severFiltered p).severInputs[p] = { s.severInputs[p] with filtered := true } := by
      rw [← InputFilter.settle_raw hr]
      exact Vector.getElem_set_self p.isLt
    cases ho : s.isOpen p with
    | false =>
      rw [State.severPort_closed (s.severFiltered p) p .pin ho]
      exact ⟨rfl, input, fun _ => ⟨rfl, ⟨rfl, rfl, rfl, rfl⟩, rfl, rfl⟩,
        fun o h => absurd ho (by rw [s.isOpen_of_opened p h]; simp), ⟨rfl, rfl, rfl, rfl, rfl⟩, fun q _ => ⟨rfl, rfl⟩⟩
    | true =>
      obtain ⟨o, hs⟩ := State.opened_of_isOpen ho
      have ended := (s.severFiltered p).severPort_spec p .pin o hs
      have supervision : s.SameSupervision (s.severFiltered p) := ⟨rfl, rfl, rfl, rfl, rfl⟩
      refine ⟨ended.inputs.now, by rw [ended.inputs.severInputs]; exact input, nofun, fun o' h => ?_,
        supervision.trans ended.supervision, fun q hq => ⟨ended.sessions q hq, ended.ports q hq⟩⟩
      rw [hs] at h; cases h
      exact ⟨ended.session, ended.noClaims, ended.freed, ended.queue, ended.port⟩

end Sys2Proof.Machine
end

section
/-! ## Breaks -/

namespace Sys2Proof.Machine

/-! ### The character that a break finds on the line -/

section
variable {q : PortInterface} {c : TxChar} {m : Moment}

/-- A character on the line has begun (R172). -/
theorem PortInterface.began_of_onLine (h : q.onLine m = some c) : c.began ≤ m := by
  unfold PortInterface.onLine at h
  split at h
  · next c' hc =>
    cases h
    have := (Option.filter_eq_some_iff.mp hc).2
    exact (of_decide_eq_true this).1
  · unfold PortInterface.replyChar at h
    split at h
    · next b r rest _ _ =>
      split at h
      · next hb =>
        obtain ⟨v, -, rfl⟩ := Option.map_eq_some_iff.mp h
        exact Nat.add_le_of_le_sub' hb (Nat.div_mul_le_self (m - b) q.rate.charMoments)
      · cases h
    · cases h

/-- A port without replies sends its last character to the stop bit, and then nothing (R178, R179). -/
theorem PortInterface.txMark_lastChar (hr : q.replies = []) (hl : q.lastChar = some c) (hb : c.began ≤ m) :
    q.txMark m = if m < c.ends then c.isMark m else true := by
  split
  · next he =>
    have found : q.onLine m = some c := by simp [PortInterface.onLine, hl, Option.filter, hb, he]
    rw [PortInterface.txMark, found]
  · next he =>
    refine q.txMark_of_idle m hr fun c' h => ?_
    rw [hl] at h; cases h
    exact Nat.le_of_not_lt he

/-- What TXDn does from a break on (R178, R179). -/
theorem PortInterface.txMark_breakEffect {now : Time} {r : PortInterface} (hr : r.replies = [])
    (hl : r.lastChar = q.onLine (momentOf now)) :
    (∀ c, q.onLine (momentOf now) = some c → ∀ m, momentOf now ≤ m →
      r.txMark m = if m < c.began + 10 * c.rate.bitMoments then c.isMark m else true)
    ∧ (q.onLine (momentOf now) = none → ∀ m, momentOf now ≤ m → r.txMark m = true) :=
  ⟨fun _ hc _ hm => PortInterface.txMark_lastChar hr (hl.trans hc) (Nat.le_trans (PortInterface.began_of_onLine hc) hm),
   fun hn m _ => r.txMark_of_idle m hr fun c h => by rw [hl, hn] at h; cases h⟩
end

section
variable {s : State} {p : Port} {since : Time}

/-- The state in which the Port Interface has made the break (R177, R178). -/
def State.broken (s : State) (p : Port) (since : Time) : State :=
  (s.passTo (since + Config.breakUnits)).setPort p ((s.port p).breakEffect since (max s.now (since + 1000)))

theorem exec_breakDetected (hl : (s.port p).line = .space since false) :
    exec (.breakDetected p) s = .next ((s.broken p since).severPort p .lineBreak) := by
  show execBreakDetected p s = _
  unfold execBreakDetected
  rw [hl]
  rfl

theorem exec_breakDetected_reported (hl : (s.port p).line = .space since true) : exec (.breakDetected p) s = .next s := by
  show execBreakDetected p s = _
  unfold execBreakDetected
  rw [hl]

end

/-- Settles O17: the port is that of the break, whether or not a session ends with it, and its line is that of
`PortInterface.txMark_breakEffect`; a sever is the end of the session (`State.severPort_spec`). -/
theorem breakResetsThePort : Obligations.BreakResetsThePort := by
  refine fun p since s => ⟨exec_breakDetected_reported, fun hl => ⟨_, exec_breakDetected hl, ?_⟩⟩
  have broken : (s.broken p since).port p = (s.port p).breakEffect since (max s.now (since + 1000)) :=
    (State.port_setPort ..).trans (if_pos rfl)
  have other : ∀ q, q ≠ p → (s.broken p since).port q = s.port q := fun q hq =>
    (State.port_setPort ..).trans (if_neg (Ne.symm hq))
  cases ho : s.isOpen p with
  | false =>
    rw [State.severPort_closed (s.broken p since) p .lineBreak ho, broken]
    obtain ⟨sent, idle⟩ := PortInterface.txMark_breakEffect (q := s.port p) (now := max s.now (since + 1000))
      (r := (s.port p).breakEffect since (max s.now (since + 1000))) rfl rfl
    exact ⟨rfl, rfl, rfl, rfl, rfl, rfl, rfl, rfl, rfl, rfl, rfl, sent, idle,
      fun o h => absurd ho (by rw [s.isOpen_of_opened p h]; simp), fun _ => ⟨rfl, rfl, ⟨rfl, rfl, rfl, rfl⟩, rfl⟩,
      ⟨rfl, rfl, rfl, rfl, rfl⟩, fun q hq => ⟨rfl, other q hq⟩, rfl, rfl⟩
  | true =>
    obtain ⟨o, hs⟩ := State.opened_of_isOpen ho
    have ended := (s.broken p since).severPort_spec p .lineBreak o hs
    have supervision : s.SameSupervision (s.broken p since) := ⟨rfl, rfl, rfl, rfl, rfl⟩
    have now := ended.inputs.now
    have port := broken ▸ ended.port
    rw [port, now]
    obtain ⟨sent, idle⟩ := PortInterface.txMark_breakEffect (q := s.port p) (now := max s.now (since + 1000))
      (r := { (s.port p).breakEffect since (max s.now (since + 1000)) with cache := none, inbound := [] }) rfl rfl
    refine ⟨rfl, rfl, rfl, rfl, rfl, rfl, rfl, rfl, rfl, rfl, rfl, sent, idle, fun o' h => ?_, nofun,
      supervision.trans ended.supervision, fun q hq => ⟨ended.sessions q hq, (ended.ports q hq).trans (other q hq)⟩,
      ended.inputs.confirmInputs, ended.inputs.severInputs⟩
    rw [hs] at h; cases h
    exact ⟨rfl, ended.session, ended.noClaims, ended.freed, by rw [ended.queue]⟩

end Sys2Proof.Machine
end

section
/-! ## JOIN, LEAVE and SEVER -/

namespace Sys2Proof.Machine

/-! ### What the taking and the reply leave alone -/

section
variable {s : State} {k : RequestKind} {p : Port} {f : Frame}

theorem State.taking_sameClaimTable (s : State) (k : RequestKind) (p : Port) (f : Frame) : s.SameClaimTable (s.taking k p f) := by
  constructor <;> simp

theorem State.taking_sameSupervision (s : State) (k : RequestKind) (p : Port) (f : Frame) :
    s.SameSupervision (s.taking k p f) := by constructor <;> simp

theorem State.taking_sameInputs (s : State) (k : RequestKind) (p : Port) (f : Frame) : s.SameInputs (s.taking k p f) := by
  constructor <;> simp

theorem State.place_sameSupervision (s : State) (p : Port) (f : Frame) (st : Status) (body : List Byte) (ex : Bool) :
    s.SameSupervision (s.place p f st body ex) := ⟨rfl, rfl, rfl, rfl, rfl⟩

theorem State.place_sameInputs (s : State) (p : Port) (f : Frame) (st : Status) (body : List Byte) (ex : Bool) :
    s.SameInputs (s.place p f st body ex) := ⟨rfl, rfl, rfl, rfl⟩

theorem State.taking_severReport (s : State) (k : RequestKind) (p : Port) (f : Frame) (q : Port) (o : OpenSession)
    (reason : SeverReason) : (s.taking k p f).severReport q o reason = s.severReport q o reason := by
  simp [State.severReport]

theorem State.taking_session_of_closed (s : State) (k : RequestKind) (p : Port) (f : Frame) {q : Port} (h : s.isOpen q = false) :
    (s.taking k p f).session q = s.session q := by
  by_cases e : q = p
  · subst e; exact State.taking_session_closed s k q f h
  · exact State.taking_session_other s k p f q e

/-- What the end of port `q`'s session leaves by the reply to the request of port `p` that has ended it (R111, R120). -/
structure State.PortClosed (s u : State) (p q : Port) (st : SessionState) : Prop where
  session : u.session q = { incarnation := s.incarnation q, state := st }
  noClaims : ∀ c ∈ u.claims, c.owner ≠ q
  freed : ∀ h, u.slot q h = .free
  queue : u.queue q = { s.queue q with entries := [] }
  inbound : (u.port q).inbound = []
  supervision : s.SameSupervision u
  inputs : s.SameInputs u
  others : ∀ r, r ≠ q → r ≠ p → u.session r = s.session r ∧ u.port r = s.port r

theorem State.SessionEnd.placed {e : State} {q : Port} {st : SessionState} (a : (s.taking k p f).SessionEnd e q st)
    (status : Status) (body : List Byte) : s.PortClosed (e.place p f status body true) p q st where
  session := a.session.trans (by rw [State.taking_incarnation])
  noClaims := a.noClaims
  freed := a.freed
  queue := a.queue.trans (by rw [State.taking_queue])
  inbound := by rw [(State.place_port_keeps e status body true q).1, a.port]
  supervision := (s.taking_sameSupervision k p f).trans (a.supervision.trans (e.place_sameSupervision ..))
  inputs := (s.taking_sameInputs k p f).trans (a.inputs.trans (e.place_sameInputs ..))
  others r hr hp := ⟨(a.sessions r hr).trans (State.taking_session_other s k p f r hp),
    by rw [State.place_port_other hp, a.ports r hr, State.taking_port_other hp]⟩
end

/-! ### LEAVE -/

section
variable {s : State} {p k : Port} {f : Frame}

theorem State.Offered.leave_executed (h : s.Offered .leave p f) (ho : s.OpenFor p f) :
    let u := ((s.taking .leave p f).endSession p .idle).place p f .ok
      [byteOf (s.holdingsOf p).length, byteOf (s.openRequests p)] true
    exec (.leave p) s = .next u
      ∧ s.Answered u p f .ok [byteOf (s.holdingsOf p).length, byteOf (s.openRequests p)] := by
  have verdict : RequestKind.leave.verdict p f (s.taking .leave p f) = _ :=
    Verdict.checked_none (State.sessionChecks_open ho.taking)
  rw [State.taking_holdingsOf, State.taking_openRequests] at verdict
  obtain ⟨hexec, hans, -⟩ := h.executed verdict
  exact ⟨hexec, hans⟩

/-! ### SEVER -/

theorem portOf_eq {b : Byte} (e : b.toNat = k.val) : portOf b = k := by
  apply Fin.ext
  simp [portOf, Fin.ofNat, e, Nat.mod_eq_of_lt k.isLt]

/-- The parameter check of a SEVER, behind its session and permission checks (R122). -/
theorem State.OpenFor.sever_verdict (ho : s.OpenFor p f) (hp : p = s.supervisor) :
    RequestKind.sever.verdict p f (s.taking .sever p f) =
      if 5 < (f.byte 0).toNat then .refused .badParameter
      else .executed .ok
        (if s.isOpen (portOf (f.byte 0)) then
          [byteOf (s.holdingsOf (portOf (f.byte 0))).length, byteOf (s.openRequests (portOf (f.byte 0)))] else [0, 0])
        ((s.taking .sever p f).severPort (portOf (f.byte 0)) .supervisor) := by
  refine (Verdict.checked_append (State.supervisorChecks_open ho.taking (by simpa using hp))).trans ?_
  simp

theorem State.Offered.sever_executed (h : s.Offered .sever p f) (ho : s.OpenFor p f) (hp : p = s.supervisor)
    (hk : (f.byte 0).toNat = k.val) :
    let body := if s.isOpen k then [byteOf (s.holdingsOf k).length, byteOf (s.openRequests k)] else [0, 0]
    let u := ((s.taking .sever p f).severPort k .supervisor).place p f .ok body true
    exec (.sever p) s = .next u ∧ s.Answered u p f .ok body := by
  have verdict := ho.sever_verdict hp
  rw [if_neg (by have := k.isLt; omega), portOf_eq hk] at verdict
  obtain ⟨hexec, hans, -⟩ := h.executed verdict
  exact ⟨hexec, hans⟩
end

/-- Settles O20: both requests end a session (`State.SessionEnd`), LEAVE its port's own and SEVER that of the port named, where
it has one. -/
theorem leaveAndSeverEndTheSession : Obligations.LeaveAndSeverEndTheSession := by
  refine fun p f s => ⟨fun h ho => ?_, fun h ho hp hbig => ?_, fun h ho hp k hk => ⟨fun hc => ?_, fun o hs => ?_⟩⟩
  · obtain ⟨hexec, hans⟩ := h.leave_executed ho
    have closed := ((s.taking .leave p f).endSession_spec p .idle rfl).placed .ok
      [byteOf (s.holdingsOf p).length, byteOf (s.openRequests p)]
    exact ⟨_, hexec, closed.session, closed.noClaims, closed.freed, closed.queue, closed.inbound, hans,
      State.place_cache _ _ _, closed.supervision, closed.inputs, fun q hq => closed.others q hq hq⟩
  · exact h.refused ((ho.sever_verdict hp).trans (if_pos hbig)) nofun
  · obtain ⟨hexec, -⟩ := h.sever_executed ho hp hk
    rw [State.severPort_closed _ _ _ (by simpa using hc), hc, if_neg Bool.false_ne_true] at hexec
    exact hexec
  · obtain ⟨hexec, hans⟩ := h.sever_executed ho hp hk
    rw [s.isOpen_of_opened k hs, if_pos rfl] at hexec hans
    obtain ⟨o', hs', hid⟩ := State.taking_opened (s := s) (p := p) (f := f) .sever hs
    have closed := ((s.taking .sever p f).severPort_spec k .supervisor o' hs').placed .ok
      [byteOf (s.holdingsOf k).length, byteOf (s.openRequests k)]
    rw [State.taking_severReport] at closed
    refine ⟨_, hexec, closed.session.trans ?_, closed.noClaims, closed.freed, closed.queue, closed.inbound, hans,
      closed.supervision, closed.inputs, closed.others⟩
    rw [State.severReport, hid]

end Sys2Proof.Machine
end

section
/-! ## Opening a session -/

namespace Sys2Proof.Machine

section
variable {s : State} {p : Port} {f : Frame}

/-- The state after the execution of a JOIN, before its reply: the old session severed, where one is open, and a new one
opened (R107, R108). -/
def State.joined (s : State) (p : Port) (f : Frame) : State :=
  (s.severPort p .rejoin).openSession p (f.word 0) (f.word 2)

/-- The checks of a JOIN (R106). -/
theorem State.join_verdict : RequestKind.join.verdict p f s =
    if s.severInputs[p].filtered = true then .refused .heldDown
    else if (f.word 2).toNat < 20 ∨ 10000 < (f.word 2).toNat then .refused .badParameter
    else .executed .ok ((s.joined p f).joinBody p ((s.severPort p .rejoin).session p).state.report (f.word 2))
      (s.joined p f) := by
  show joinVerdict p f s = _
  rw [joinVerdict, Verdict.checked_cons, Verdict.checked_cons, Verdict.checked_nil]
  simp [State.joined]

theorem State.Offered.join_executed (h : s.Offered .join p f) (hf : s.severInputs[p].filtered = false)
    (h20 : 20 ≤ (f.word 2).toNat) (h10000 : (f.word 2).toNat ≤ 10000) :
    let t := s.taking .join p f
    let body := (t.joined p f).joinBody p ((t.severPort p .rejoin).session p).state.report (f.word 2)
    exec (.join p) s = .next ((t.joined p f).place p f .ok body true)
      ∧ s.Answered ((t.joined p f).place p f .ok body true) p f .ok body := by
  intro t body
  have verdict := State.join_verdict (s := t) (p := p) (f := f)
  rw [State.taking_severInputs, if_neg (ne_true_of_eq_false hf), if_neg (by omega)] at verdict
  obtain ⟨hexec, hans, -⟩ := h.executed verdict
  exact ⟨hexec, hans⟩

/-- A new session of a port, which leaves all but its record, queue and reply cache as they were (R107). -/
structure State.Opens (s u : State) (p : Port) (client keepalive : Word16) : Prop where
  session : u.session p =
    { incarnation := incSucc (s.incarnation p)
      state := .live { clientId := client, keepalive := keepalive, windowEnds := s.now + keepalive.toNat * 100 } }
  queue : u.queue p = { entries := [], nextSeq := 1, incarnation := incSucc (s.incarnation p) }
  inbound : (u.port p).inbound = (s.port p).inbound
  others : s.SameOtherPorts u p
  table : s.SameClaimTable u
  supervision : s.SameSupervision u
  inputs : s.SameInputs u
  events : s.SameEvents u

theorem State.openSession_opens (s : State) (p : Port) (a b : Word16) : s.Opens (s.openSession p a b) p a b where
  session := (State.session_setSession ..).trans (if_pos rfl)
  queue := (State.queue_setQueue ..).trans (if_pos rfl)
  inbound := by simp [State.openSession]
  others q hq := by simp [State.openSession, Ne.symm hq]
  table := ⟨rfl, rfl, rfl, rfl⟩
  supervision := ⟨rfl, rfl, rfl, rfl, rfl⟩
  inputs := ⟨rfl, rfl, rfl, rfl⟩
  events := ⟨rfl, rfl⟩

theorem State.Opens.placed {e u : State} {a b : Word16} (o : e.Opens u p a b) (st : Status) (body : List Byte) :
    e.Opens (u.place p f st body true) p a b where
  session := o.session
  queue := o.queue
  inbound := (State.place_port_keeps u st body true p).1.trans o.inbound
  others q hq := ⟨(o.others q hq).1, (o.others q hq).2.1, (State.place_port_other hq).trans (o.others q hq).2.2⟩
  table := ⟨o.table.claims, o.table.slots, o.table.resources, o.table.lineReports⟩
  supervision := o.supervision.trans (u.place_sameSupervision ..)
  inputs := o.inputs.trans (u.place_sameInputs ..)
  events := ⟨o.events.ackEvents, o.events.liveReports⟩

/-- The taking of the request writes nothing that the new session does not replace. -/
theorem State.Opens.ofTaking {u : State} {k : RequestKind} {a b : Word16} (o : (s.taking k p f).Opens u p a b) :
    s.Opens u p a b where
  session := by rw [o.session, State.taking_incarnation, State.taking_now]
  queue := by rw [o.queue, State.taking_incarnation]
  inbound := by rw [o.inbound, State.taking_port, if_pos rfl]
  others q hq := by
    obtain ⟨session, queue, port⟩ := o.others q hq
    exact ⟨session.trans (State.taking_session_other s k p f q hq), queue.trans (State.taking_queue ..),
      port.trans (State.taking_port_other hq)⟩
  table := ⟨o.table.claims.trans (State.taking_claims ..), o.table.slots.trans (State.taking_slots ..),
    o.table.resources.trans (State.taking_resources ..), o.table.lineReports.trans (State.taking_lineReports ..)⟩
  supervision := (s.taking_sameSupervision k p f).trans o.supervision
  inputs := (s.taking_sameInputs k p f).trans o.inputs
  events := ⟨o.events.ackEvents.trans (State.taking_ackEvents ..), o.events.liveReports.trans (State.taking_liveReports ..)⟩

/-- The part of a JOIN's reply that reports the end of the session before (R109). -/
def reportBytes : Option SeverReport → List Byte
  | none => [0]
  | some r => [r.reason.code, r.incarnation] ++ wordBytes r.clientId ++ [byteOf r.holdings, byteOf r.requests]

theorem reportBytes_report (st : SessionState) : reportBytes st.report =
    match st with
    | .severed r => [r.reason.code, r.incarnation] ++ wordBytes r.clientId ++ [byteOf r.holdings, byteOf r.requests]
    | _ => [0] := by
  cases st <;> rfl

/-- The reply body of a JOIN (R109). -/
theorem State.joinBody_openSession (s : State) (p : Port) (a b : Word16) (report : Option SeverReport) :
    (s.openSession p a b).joinBody p report b =
      [incSucc (s.incarnation p)] ++ wordBytes b ++ [byteOfBool (decide (s.supervisor = p))] ++ reportBytes report := by
  have incarnation : (s.openSession p a b).incarnation p = incSucc (s.incarnation p) :=
    congrArg Session.incarnation (s.openSession_opens p a b).session
  unfold State.joinBody
  rw [incarnation, (s.openSession_opens p a b).supervision.supervisor]
  cases report <;> rfl
end

/-- Settles O18: behind its checks a JOIN on a port without a session severs nothing, so all it does is `State.Opens`. -/
theorem joinOpensASession : Obligations.JoinOpensASession := by
  refine fun p f s h => ⟨fun hf => ?_, fun hf hk => ?_, fun hf h20 h10000 hc => ?_⟩
  · exact h.refused (State.join_verdict.trans (if_pos (by rw [State.taking_severInputs]; exact hf))) nofun
  · refine h.refused (State.join_verdict.trans ?_) nofun
    rw [State.taking_severInputs, if_neg (ne_true_of_eq_false hf), if_pos hk]
  · intro inc
    obtain ⟨hexec, hans⟩ := h.join_executed hf h20 h10000
    have unsevered : (s.taking .join p f).severPort p .rejoin = s.taking .join p f :=
      State.severPort_closed _ _ _ (by simpa using hc)
    rw [State.joined, unsevered, State.joinBody_openSession, State.taking_session_of_closed s .join p f hc,
      State.taking_incarnation, State.taking_supervisor, reportBytes_report] at hexec hans
    have opens := fun body =>
      (((s.taking .join p f).openSession_opens p (f.word 0) (f.word 2)).placed (f := f) .ok body).ofTaking
    exact ⟨_, hexec, (opens _).session, (opens _).queue, hans, State.place_cache _ _ _, (opens _).table,
      (opens _).supervision, (opens _).inputs, (opens _).others, (opens _).events⟩

/-- Settles O19: the sever (`State.SessionEnd`) comes first, and the new session opens (`State.Opens`) on the port it leaves. -/
theorem rejoinSeversFirst : Obligations.RejoinSeversFirst := by
  intro p f o s h hf h20 h10000 hs inc
  obtain ⟨hexec, hans⟩ := h.join_executed hf h20 h10000
  obtain ⟨o', hs', hid⟩ := State.taking_opened (s := s) (p := p) (f := f) .join hs
  have ended := (s.taking .join p f).severPort_spec p .rejoin o' hs'
  have incarnation : ((s.taking .join p f).severPort p .rejoin).incarnation p = s.incarnation p := by
    rw [State.incarnation, ended.session, State.taking_incarnation]
  have now : ((s.taking .join p f).severPort p .rejoin).now = s.now := ended.inputs.now.trans (State.taking_now ..)
  have report : (((s.taking .join p f).severPort p .rejoin).session p).state.report = some (s.severReport p o .rejoin) := by
    rw [ended.session, State.taking_severReport, State.severReport, State.severReport, hid]
    rfl
  rw [State.joined, report, State.joinBody_openSession, incarnation, ended.supervision.supervisor,
    State.taking_supervisor] at hexec hans
  have opens := fun body =>
    (((s.taking .join p f).severPort p .rejoin).openSession_opens p (f.word 0) (f.word 2)).placed (f := f) .ok body
  refine ⟨_, hexec, ?_, ?_, fun c hc => ?_, fun k => ?_, ?_, ?_, ?_, ?_, fun q hq => ?_⟩
  · rw [(opens _).session, incarnation, now]
    rfl
  · rw [(opens _).queue, incarnation]
    rfl
  · rw [(opens _).table.claims] at hc
    exact ended.noClaims c hc
  · rw [State.slot, (opens _).table.slots]
    exact ended.freed k
  · rw [(opens _).inbound, ended.port]
  · simpa [inc, incSucc, reportBytes, State.severReport, SeverReason.code] using hans
  · exact (s.taking_sameSupervision .join p f).trans (ended.supervision.trans (opens _).supervision)
  · exact (s.taking_sameInputs .join p f).trans (ended.inputs.trans (opens _).inputs)
  · obtain ⟨session, -, port⟩ := (opens _).others q hq
    rw [session, port, ended.sessions q hq, ended.ports q hq, State.taking_session_other s .join p f q hq,
      State.taking_port_other hq]
    exact ⟨rfl, rfl⟩

end Sys2Proof.Machine
end

section
/-! ## The limits -/

namespace Sys2Proof.Machine

section
variable {s : State} {p : Port} {f : Frame}

theorem badLimit_iff (b : Byte) : badLimit b = true ↔ ¬ (1 ≤ b.toNat ∧ b.toNat ≤ 15) := by
  simp only [badLimit, Bool.or_eq_true, beq_iff_eq, decide_eq_true_eq]
  omega

/-- The parameter check of a SET_LIMITS, behind its session, permission and mode checks (R154). -/
theorem State.OpenFor.setLimits_verdict (ho : s.OpenFor p f) (hp : p = s.supervisor) (hm : s.mode = .setup) :
    RequestKind.setLimits.verdict p f (s.taking .setLimits p f) =
      if (badLimit (f.byte 0) || badLimit (f.byte 1)) = true then .refused .badParameter
      else .executed .ok [f.byte 0, f.byte 1, f.byte 2]
        ((s.taking .setLimits p f).limitsEvent (f.byte 0).toNat (f.byte 1).toNat (f.byte 2).toNat) := by
  refine (Verdict.checked_append (State.supervisorChecks_open ho.taking (by simpa using hp))).trans ?_
  simp [State.modeCheck, hm]

theorem State.Offered.setLimits_executed (h : s.Offered .setLimits p f) (ho : s.OpenFor p f) (hp : p = s.supervisor)
    (hm : s.mode = .setup) (good : (badLimit (f.byte 0) || badLimit (f.byte 1)) = false) :
    let body := [f.byte 0, f.byte 1, f.byte 2]
    let u := ((s.taking .setLimits p f).limitsEvent (f.byte 0).toNat (f.byte 1).toNat (f.byte 2).toNat).place p f .ok body true
    exec (.setLimits p) s = .next u ∧ s.Answered u p f .ok body ∧ s.SameInputs u := by
  intro body u
  have verdict := ho.setLimits_verdict hp hm
  rw [if_neg (ne_true_of_eq_false good)] at verdict
  obtain ⟨hexec, hans, requested⟩ := h.executed verdict
  exact ⟨hexec, hans, (s.taking_sameInputs ..).trans (requested.inputs.trans (State.place_sameInputs ..))⟩

/-- The reply to the request changes no session and none of the limits. -/
theorem State.LimitsReach.placed {t : State} {ps : List Port} (a : s.LimitsReach t ps) (st : Status) (body : List Byte) :
    s.LimitsReach (t.place p f st body true) ps where
  supervision := a.supervision.trans (t.place_sameSupervision ..)
  reached q hq :=
    have r := a.reached q hq
    ⟨r.severed, r.recovered, r.lapsed, r.unlapsed⟩
  others := a.others
  reports := a.reports
end

/-- Settles O35: SET_LIMITS stores the limits and lets them reach every port (`State.LimitsReach`). -/
theorem limitsReachTheSessions : Obligations.LimitsReachTheSessions := by
  intro p f s h ho hp hm t inRange
  refine ⟨fun bad => ?_, fun h0 h1 => ?_⟩
  · rw [not_and_or] at bad
    exact h.refused ((ho.setLimits_verdict hp hm).trans
      (if_pos (by rw [Bool.or_eq_true, badLimit_iff, badLimit_iff]; exact bad))) nofun
  · have good : (badLimit (f.byte 0) || badLimit (f.byte 1)) = false := by
      rw [Bool.or_eq_false_iff, ← Bool.not_eq_true, ← Bool.not_eq_true, badLimit_iff, badLimit_iff, not_not, not_not]
      exact ⟨h0, h1⟩
    obtain ⟨hexec, hans, inputs⟩ := h.setLimits_executed ho hp hm good
    obtain ⟨⟨mode, supervisor, threshold, recovery, filterTime⟩, reached, -, -⟩ :=
      (t.limitsEvent_reach (f.byte 0).toNat (f.byte 1).toNat (f.byte 2).toNat).placed (p := p) (f := f) .ok
        [f.byte 0, f.byte 1, f.byte 2]
    have reach := fun q => reached q (List.mem_finRange q)
    have incarnation : ∀ q, (t.withLimits (f.byte 0).toNat (f.byte 1).toNat (f.byte 2).toNat).incarnation q = s.incarnation q :=
      State.taking_incarnation s .setLimits p f
    refine ⟨_, hexec, hans, threshold, recovery, filterTime,
      mode.trans (State.taking_mode ..), supervisor.trans (State.taking_supervisor ..), inputs,
      fun q o l hs hle => ?_, fun q o l hs hlt hle => ?_, fun q => (reach q).lapsed, fun q => (reach q).unlapsed⟩
    · obtain ⟨r, session, reason, inc, client⟩ := (reach q).severed o l hs hle
      exact ⟨r, session.trans (by rw [incarnation]), reason, inc.trans (incarnation q), client⟩
    · obtain ⟨session, reported⟩ := (reach q).recovered o l hs hlt hle
      rw [incarnation] at session reported
      exact ⟨session, reported⟩

end Sys2Proof.Machine
end

section
/-! ## What a step makes of the notice queues

A queue changes by the adding of a notice (R130 to R132), by FETCH (R136, R137), by the clearing at the end of a session
(R120, R142) and by the opening of a session (R107), each of which keeps its laws. -/

namespace Sys2Proof.Machine

/-- The passages of a notice queue: additions, clearings and fetches, one after the other, and the opening of a session. -/
inductive NoticeQueue.Evolves (q : NoticeQueue) : NoticeQueue → Prop where
  | refl : NoticeQueue.Evolves q q
  | add {r : NoticeQueue} (n : Notice) : NoticeQueue.Evolves q r → NoticeQueue.Evolves q (r.add n)
  | cleared {r : NoticeQueue} : NoticeQueue.Evolves q r → NoticeQueue.Evolves q { r with entries := [] }
  | fetched {r : NoticeQueue} (n : Nat) (ack : Word16) (redeliver : Bool) : NoticeQueue.Evolves q r →
      NoticeQueue.Evolves q { r with entries := deliver n (r.acknowledge ack redeliver) }
  | opened (incarnation : Byte) : NoticeQueue.Evolves q { entries := [], nextSeq := 1, incarnation := incarnation }

/-- Every notice queue evolves. -/
def State.QueuesEvolve (s t : State) : Prop := ∀ p, (s.queue p).Evolves (t.queue p)

/-! ### One queue -/

section
variable {q r t : NoticeQueue}

theorem NoticeQueue.Evolves.trans (a : q.Evolves r) (b : r.Evolves t) : q.Evolves t := by
  induction b with
  | refl => exact a
  | add n _ ih => exact ih.add n
  | cleared _ ih => exact ih.cleared
  | fetched n ack redeliver _ ih => exact ih.fetched n ack redeliver
  | opened inc => exact .opened inc

theorem NoticeQueue.Grows.evolves (g : q.Grows r) : q.Evolves r := by
  induction g with
  | refl => exact .refl
  | add r n _ ih => exact ih.add n

theorem NoticeQueue.Law.cleared (h : q.Law) : ({ q with entries := [] } : NoticeQueue).Law :=
  ⟨List.nodup_nil, List.nodup_nil, nofun, h.next, nofun⟩

theorem NoticeQueue.deliveredFirst_of_empty (h : q.entries = []) : q.DeliveredFirst :=
  ⟨0, by simp, by simp [h]⟩

/-- R131, R133: every passage of a queue keeps its law. -/
theorem NoticeQueue.Evolves.law (a : q.Evolves r) (h : q.Law) : r.Law := by
  induction a with
  | refl => exact h
  | add n _ ih => exact ih.add n
  | cleared _ ih => exact ih.cleared
  | fetched n ack redeliver _ ih => exact ih.fetch n ack redeliver
  | opened inc => exact NoticeQueue.law_empty inc

/-- R134: every passage of a queue keeps the delivered run at its head. -/
theorem NoticeQueue.Evolves.deliveredFirst (a : q.Evolves r) (h : q.DeliveredFirst) : r.DeliveredFirst := by
  induction a with
  | refl => exact h
  | add n _ ih => exact ih.add n
  | cleared _ _ => exact NoticeQueue.deliveredFirst_of_empty rfl
  | fetched n ack redeliver _ ih => exact ih.fetch n ack redeliver
  | opened inc => exact NoticeQueue.deliveredFirst_of_empty rfl
end

/-! ### Passages of the state -/

section
variable {s t u : State} {p : Port}

theorem State.QueuesEvolve.same (h : t.queues = s.queues) : s.QueuesEvolve t := fun q => by
  rw [State.queue, State.queue, h]
  exact .refl

theorem State.QueuesEvolve.refl (s : State) : s.QueuesEvolve s := fun _ => .refl

theorem State.QueuesEvolve.trans (a : s.QueuesEvolve t) (b : t.QueuesEvolve u) : s.QueuesEvolve u := fun q =>
  (a q).trans (b q)

theorem State.QueuesEvolve.foldl {α : Type} (f : State → α → State) (hf : ∀ (s : State) (a : α), s.QueuesEvolve (f s a))
    (xs : List α) (s : State) : s.QueuesEvolve (xs.foldl f s) := by
  induction xs generalizing s with
  | nil => exact .refl s
  | cons a xs ih => exact (hf s a).trans (ih (f s a))

/-- The queue of one port evolves, and the others stand. -/
theorem State.QueuesEvolve.of_port (h : (s.queue p).Evolves (t.queue p)) (others : ∀ q, q ≠ p → t.queue q = s.queue q) :
    s.QueuesEvolve t := fun q => by
  by_cases e : q = p
  · exact e ▸ h
  · rw [others q e]
    exact .refl

theorem State.TableEvent.queuesEvolve (e : s.TableEvent t) : s.QueuesEvolve t := fun q => (e.grows q).evolves

theorem State.LineOrder.queuesEvolve {x : ResNo} (o : State.LineOrder x s t) : s.QueuesEvolve t := .same o.queues

theorem State.SessionEnd.queuesEvolve {st : SessionState} (a : s.SessionEnd t p st) : s.QueuesEvolve t := fun q => by
  by_cases e : q = p
  · rw [e, a.queue]
    exact NoticeQueue.Evolves.refl.cleared
  · exact (a.grows q e).evolves
end

section
variable (s : State) (p : Port)

theorem State.endOfEvent_queuesEvolve : s.QueuesEvolve s.endOfEvent := .same s.endOfEvent_queues

theorem State.severPort_queuesEvolve (reason : SeverReason) : s.QueuesEvolve (s.severPort p reason) := by
  cases ho : (s.session p).state.opened with
  | some o => exact (s.severPort_spec p reason o ho).queuesEvolve
  | none =>
    unfold State.severPort
    rw [ho]
    exact .refl s

theorem State.openSession_queuesEvolve (client keepalive : Word16) : s.QueuesEvolve (s.openSession p client keepalive) := by
  refine .of_port (p := p) ?_ fun q hq => by simp [State.openSession, Ne.symm hq]
  have opened : (s.openSession p client keepalive).queue p =
      { entries := [], nextSeq := 1, incarnation := incSucc (s.incarnation p) } := by simp [State.openSession]
  rw [opened]
  exact .opened _

theorem State.fetched_queuesEvolve (n : Nat) (ack : Word16) (redeliver : Bool) (acks : List AckEvent) :
    s.QueuesEvolve { s.setQueue p { s.queue p with entries := deliver n ((s.queue p).acknowledge ack redeliver) } with
      ackEvents := acks } := by
  refine .of_port (p := p) ?_ fun q hq => (s.queue_setQueue p q _).trans (if_neg (Ne.symm hq))
  exact ((s.queue_setQueue p p _).trans (if_pos rfl)).symm ▸ NoticeQueue.Evolves.refl.fetched n ack redeliver

theorem State.cancelRequest_queuesEvolve (h : Handle) : s.QueuesEvolve (s.cancelRequest p h) := by
  rw [State.cancelRequest_eq]
  exact (State.QueuesEvolve.same (s.dropped_queues p h)).trans (State.evaluate_tableEvent _ _).queuesEvolve

theorem State.accept_queuesEvolve (h : Handle) (items : List Item) (limit : Word16) :
    s.QueuesEvolve (s.accept p h items limit) := by
  have filed : s.QueuesEvolve (s.fileRequest p h items limit) := .same rfl
  exact filed.trans ((State.TableEvent.foldl _ (fun s x => s.beginYield_tableEvent x _) _ _).trans
    (State.evaluateWith_tableEvent _ _ _)).queuesEvolve

theorem State.limitsEvent_queuesEvolve (a b c : Nat) : s.QueuesEvolve (s.limitsEvent a b c) := by
  have stored : s.QueuesEvolve (s.withLimits a b c) := .same rfl
  refine stored.trans (.foldl State.applyLimits (fun s q => ?_) (List.finRange 6) _)
  unfold State.applyLimits
  split
  · split
    · exact s.severPort_queuesEvolve q _
    · split
      · exact .same rfl
      · exact .refl s
  · exact .refl s

theorem State.drainToSetup_queuesEvolve : s.QueuesEvolve s.drainToSetup :=
  .trans (t := { s with mode := .setup }) (.same rfl) (State.notifyMode_tableEvent _ _).queuesEvolve

theorem State.setModeEvent_queuesEvolve (m : DeviceMode) : s.QueuesEvolve (s.setModeEvent m) := by
  have changed : ∀ m, s.QueuesEvolve (s.changeMode m) := fun _ => .same rfl
  have service : s.QueuesEvolve s.enterService :=
    (changed .service).trans ((State.notifyMode_tableEvent _ _).trans (State.evaluate_tableEvent _ _)).queuesEvolve
  have quiesce : s.QueuesEvolve s.enterQuiesce := by
    have drain := (changed .quiesce).trans
      (((State.notifyMode_tableEvent _ .quiesce).trans (State.withdrawAll_tableEvent _)).trans
        (State.evaluate_tableEvent _ (s.losers fun c => c.state.isWaiting))).queuesEvolve
    unfold State.enterQuiesce
    dsimp only
    split
    · exact drain.trans (State.drainToSetup_queuesEvolve _)
    · exact drain
  unfold State.setModeEvent
  split
  · exact service
  · exact service
  · exact quiesce
  · exact .refl s

theorem State.restartEvent_queuesEvolve : s.QueuesEvolve s.restartEvent := fun q => by
  rw [State.restartEvent_queue, State.restartedQueue]
  split
  · exact NoticeQueue.Evolves.refl.cleared
  · exact .refl
end

/-! ### Requests -/

/-- What an executed request makes of the queues. -/
theorem RequestKind.verdict_queuesEvolve {k : RequestKind} {p : Port} {f : Frame} {s t : State} {st : Status}
    {body : List Byte} (h : k.verdict p f s = .executed st body t) : s.QueuesEvolve t := by
  cases k with
  | join =>
    obtain ⟨-, h⟩ := Verdict.checked_executed h; cases h
    exact (s.severPort_queuesEvolve p .rejoin).trans (State.openSession_queuesEvolve _ p _ _)
  | leave =>
    obtain ⟨-, h⟩ := Verdict.checked_executed h; cases h
    exact (s.endSession_spec p .idle rfl).queuesEvolve
  | touch | sessionInfo | resourceInfo | holdings | partInfo | setRate | setSupervisor | define | undefine =>
    obtain ⟨-, h⟩ := Verdict.checked_executed h; cases h
    exact .same rfl
  | fetch =>
    obtain ⟨-, h⟩ := Verdict.checked_executed h; cases h
    exact s.fetched_queuesEvolve p Config.fetchRecords _ _ _
  | claim =>
    obtain ⟨-, h⟩ := Verdict.checked_executed h
    unfold acceptedAnswer at h
    split at h <;> cases h <;> exact s.accept_queuesEvolve p _ _ _
  | cancel =>
    obtain ⟨-, h⟩ := Verdict.checked_executed h; cases h
    exact s.cancelRequest_queuesEvolve p _
  | release =>
    obtain ⟨-, h⟩ := Verdict.checked_executed h; cases h
    exact (s.removeAndEvaluate_tableEvent _).queuesEvolve
  | setLimits =>
    obtain ⟨-, h⟩ := Verdict.checked_executed h; cases h
    exact s.limitsEvent_queuesEvolve _ _ _
  | setMode =>
    obtain ⟨-, h⟩ := Verdict.checked_executed h; cases h
    exact s.setModeEvent_queuesEvolve _
  | forceRelease =>
    obtain ⟨-, h⟩ := Verdict.checked_executed h; cases h
    exact (s.forceReleaseEvent_tableEvent _).queuesEvolve
  | disable =>
    obtain ⟨-, h⟩ := Verdict.checked_executed h; cases h
    exact (s.disableEvent_tableEvent _).queuesEvolve
  | clearFault =>
    obtain ⟨-, h⟩ := Verdict.checked_executed h; cases h
    exact (s.clearFaultEvent_tableEvent _).queuesEvolve
  | sever =>
    obtain ⟨-, h⟩ := Verdict.checked_executed h; cases h
    exact s.severPort_queuesEvolve _ .supervisor
  | restart =>
    obtain ⟨-, h⟩ := Verdict.checked_executed h; cases h
    exact s.restartEvent_queuesEvolve

section
variable (s : State) (p : Port)

/-- The taking, the end of the event and the reply touch no queue, so that of a request only its execution does. -/
theorem RequestKind.queuesEvolve (k : RequestKind) : s.QueuesEvolve (s.serve k p (k.verdict p)) := by
  by_cases h : ∃ f, s.Offered k p f
  · obtain ⟨f, hf⟩ := h
    rw [State.serve_offered hf]
    have taken : s.QueuesEvolve (s.taking k p f) := .same (s.taking_queues k p f)
    have answered : ∀ (u : State) st body ex, u.QueuesEvolve ((u.endOfServe k.owner).place p f st body ex) :=
      fun u _ _ _ q => by
        rw [State.queue_place, State.endOfServe_queue]
        exact .refl
    cases hv : k.verdict p f (s.taking k p f) with
    | refused st => exact taken.trans (answered _ st _ false)
    | executed st body t => exact (taken.trans (RequestKind.verdict_queuesEvolve hv)).trans (answered t st body true)
  · rw [State.serve_not_offered fun f hf => h ⟨f, hf⟩]
    exact .refl s

/-! ### The Claim Table's internal events -/

variable (x : ResNo)

theorem State.onGuardElapsed_queuesEvolve : s.QueuesEvolve (State.onGuardElapsed x s) := by
  unfold State.onGuardElapsed
  split
  · exact (s.setLineState_lineOrder x _).queuesEvolve
  · next k _ _ => exact (s.engageOrVerify_lineOrder x k).queuesEvolve.trans (State.evaluate_tableEvent _ _).queuesEvolve
  · exact .refl s

theorem State.onReleaseSeen_queuesEvolve : s.QueuesEvolve (State.onReleaseSeen x s) := by
  unfold State.onReleaseSeen
  split
  · next k _ _ => exact (s.beginEngage_lineOrder x k).queuesEvolve.trans (State.evaluate_tableEvent _ _).queuesEvolve
  · exact .refl s

/-- The taking of a Line Unit report does to the queues what its effect does (R77). -/
theorem State.takeReport_queuesEvolve (k : LineReportKind) (act : State → State)
    (ha : ∀ u : State, u.QueuesEvolve (act u)) : s.QueuesEvolve (s.takeReport x k act) := by
  have dropped : s.QueuesEvolve (s.dropReport x) := .same rfl
  unfold State.takeReport
  split
  · exact .refl s
  · refine .trans ?_ (State.endOfEvent_queuesEvolve _)
    split
    · exact dropped.trans (ha _)
    · exact dropped

theorem liveAgain_queuesEvolve : ∃ t, execLiveAgain p s = .next t ∧ s.QueuesEvolve t := by
  refine ⟨_, rfl, ?_⟩
  split
  · exact .refl s
  · have taken : s.QueuesEvolve { s with liveReports := s.liveReports.eraseP (·.port == p) } := .same rfl
    exact (taken.trans (State.evaluate_tableEvent _ _).queuesEvolve).trans (State.endOfEvent_queuesEvolve _)

theorem State.acknowledge_queues (a : AckEvent) : (s.acknowledge a).queues = s.queues := by
  unfold State.acknowledge
  split
  · split <;> rfl
  · rfl

theorem outcomeAcknowledged_queuesEvolve (h : Handle) :
    ∃ t, execOutcomeAcknowledged p h s = .next t ∧ s.QueuesEvolve t := by
  refine ⟨_, rfl, ?_⟩
  split
  · exact .refl s
  · exact .same ((State.endOfEvent_queues _).trans (State.acknowledge_queues _ _))

theorem noClaimsRemain_queuesEvolve : ∃ t, execNoClaimsRemain s = .next t ∧ s.QueuesEvolve t := by
  refine ⟨_, rfl, ?_⟩
  split
  · exact .refl s
  · next current rest _ =>
    have taken : s.QueuesEvolve { s with drainReports := rest } := .same rfl
    dsimp only
    split
    · exact taken.trans (State.drainToSetup_queuesEvolve _)
    · exact taken

theorem waitExpiry_queuesEvolve (h : Handle) : ∃ t, execWaitExpiry p h s = .next t ∧ s.QueuesEvolve t := by
  refine ⟨_, rfl, ?_⟩
  split
  · next T _ =>
    have passed : s.QueuesEvolve (s.passTo T) := .same rfl
    exact (passed.trans ((State.endRequest_tableEvent _ p h _ _).trans (State.evaluate_tableEvent _ _)).queuesEvolve).trans
      (State.endOfEvent_queuesEvolve _)
  · exact .refl s

theorem holdExpiry_queuesEvolve : ∃ t, execHoldExpiry p x s = .next t ∧ s.QueuesEvolve t := by
  refine ⟨_, rfl, ?_⟩
  split
  · next T _ =>
    have overtime : s.QueuesEvolve ((s.passTo T).setOvertime p x) := .same rfl
    dsimp only
    refine .trans ?_ (State.endOfEvent_queuesEvolve _)
    split
    · exact overtime
    · exact overtime.trans ((State.beginYield_tableEvent _ x _).trans (State.evaluate_tableEvent _ _)).queuesEvolve
  · exact .refl s

theorem graceExpiry_queuesEvolve : ∃ t, execGraceExpiry p x s = .next t ∧ s.QueuesEvolve t := by
  refine ⟨_, rfl, ?_⟩
  split
  · next T _ =>
    have passed : s.QueuesEvolve (s.passTo T) := .same rfl
    exact (passed.trans ((State.revoke_tableEvent _ x _ _).trans (State.evaluate_tableEvent _ _)).queuesEvolve).trans
      (State.endOfEvent_queuesEvolve _)
  · exact .refl s

/-! ### The Line Unit, the sessions and the ports -/

theorem phaseTimerExpiry_queuesEvolve : ∃ t, execPhaseTimerExpiry x s = .next t ∧ s.QueuesEvolve t := by
  refine ⟨_, rfl, ?_⟩
  split
  · next T k _ => exact .same ((s.passTo T).phaseReport_lineOrder x .quiet k).queues
  · exact .refl s

theorem confirmFilterChange_queuesEvolve (c : ConfNo) : ∃ t, execConfirmFilterChange c s = .next t ∧ s.QueuesEvolve t := by
  refine ⟨_, rfl, ?_⟩
  split
  · exact .refl s
  · next T _ =>
    exact .same (State.meetLevels_rest c (List.finRange 64) ((s.passTo T).setConfirm c s.confirmInputs[c].settle)).1.queues

theorem windowExpiry_queuesEvolve : ∃ t, execWindowExpiry p s = .next t ∧ s.QueuesEvolve t := by
  have passed : ∀ T, s.QueuesEvolve (s.passTo T) := fun _ => .same rfl
  refine ⟨_, rfl, ?_⟩
  split
  · next o _ =>
    refine (passed o.windowEnds).trans ?_
    unfold State.missFirst
    split
    · exact State.severPort_queuesEvolve _ p _
    · exact .same rfl
  · next o l _ =>
    refine (passed o.windowEnds).trans ?_
    split
    · unfold State.windowShown
      split <;> exact .same rfl
    · unfold State.windowMissed
      split
      · exact State.severPort_queuesEvolve _ p _
      · exact .same rfl
  · exact .refl s

theorem severInputFiltered_queuesEvolve : ∃ t, execSeverInputFiltered p s = .next t ∧ s.QueuesEvolve t := by
  refine ⟨_, rfl, ?_⟩
  split
  · exact .refl s
  · next T _ =>
    have settled : s.QueuesEvolve ((s.passTo T).setSever p s.severInputs[p].settle) := .same rfl
    dsimp only
    split
    · exact settled.trans (State.severPort_queuesEvolve _ p _)
    · exact settled

theorem frameReport_queuesEvolve : ∃ t, execFrameReport p s = .next t ∧ s.QueuesEvolve t := by
  refine ⟨_, rfl, ?_⟩
  split
  · exact .same (State.seeFrame_seen _ p _).queues
  · exact .refl s

theorem breakDetected_queuesEvolve : ∃ t, execBreakDetected p s = .next t ∧ s.QueuesEvolve t := by
  refine ⟨_, rfl, ?_⟩
  split
  · next since _ =>
    have discarded : s.QueuesEvolve (s.broken p since) := .same rfl
    exact discarded.trans (State.severPort_queuesEvolve _ p _)
  · exact .refl s

theorem takeRequest_queuesEvolve : ∃ t, execTakeRequest p s = .next t ∧ s.QueuesEvolve t := by
  refine ⟨_, rfl, ?_⟩
  split
  · split
    · unfold State.takeFrame
      split
      · exact .same rfl
      · split <;> exact .same rfl
    · exact .refl s
  · exact .refl s

theorem pinReset_queuesEvolve : ∃ t, execPinReset s = .next t ∧ s.QueuesEvolve t := by
  refine ⟨_, rfl, fun q => ?_⟩
  simpa [State.afterReset, State.queue] using NoticeQueue.Evolves.opened 0
end

/-! ### Every command and every step -/

theorem exec_queuesEvolve (i : Instr) (s : State) : ∃ t, exec i s = .next t ∧ s.QueuesEvolve t := by
  have request : ∀ (k : RequestKind) p, ∃ t, exec (k.command p) s = .next t ∧ s.QueuesEvolve t := fun k p =>
    ⟨_, exec_command k p s, k.queuesEvolve s p⟩
  have report : ∀ (x : ResNo) (k : LineReportKind) (act : State → State), (∀ u : State, u.QueuesEvolve (act u)) →
      s.QueuesEvolve (s.takeReport x k act) := fun x k act ha => s.takeReport_queuesEvolve x k act ha
  cases i with
  | join p => exact request .join p
  | leave p => exact request .leave p
  | touch p => exact request .touch p
  | setRate p => exact request .setRate p
  | claim p => exact request .claim p
  | cancel p => exact request .cancel p
  | release p => exact request .release p
  | fetch p => exact request .fetch p
  | sessionInfo p => exact request .sessionInfo p
  | resourceInfo p => exact request .resourceInfo p
  | holdings p => exact request .holdings p
  | partInfo p => exact request .partInfo p
  | define p => exact request .define p
  | undefine p => exact request .undefine p
  | setLimits p => exact request .setLimits p
  | setMode p => exact request .setMode p
  | setSupervisor p => exact request .setSupervisor p
  | forceRelease p => exact request .forceRelease p
  | disable p => exact request .disable p
  | clearFault p => exact request .clearFault p
  | sever p => exact request .sever p
  | restart p => exact request .restart p
  | frameComplete p | silenceLimit p | replySent p => exact ⟨_, rfl, by split <;> exact .same rfl⟩
  | characterReceived p c => exact ⟨_, rfl, by split <;> exact .same rfl⟩
  | framingError p => exact ⟨_, rfl, by split <;> exact .same rfl⟩
  | severInputChange p b => exact ⟨_, rfl, .same rfl⟩
  | confirmInputChange c b => exact ⟨_, rfl, .same rfl⟩
  | receiveLineChange p a b => exact ⟨_, rfl, .same rfl⟩
  | takeRequest p => exact takeRequest_queuesEvolve s p
  | breakDetected p => exact breakDetected_queuesEvolve s p
  | frameReport p => exact frameReport_queuesEvolve s p
  | windowExpiry p => exact windowExpiry_queuesEvolve s p
  | severInputFiltered p => exact severInputFiltered_queuesEvolve s p
  | liveAgain p => exact liveAgain_queuesEvolve s p
  | outcomeAcknowledged p h => exact outcomeAcknowledged_queuesEvolve s p h
  | noClaimsRemain => exact noClaimsRemain_queuesEvolve s
  | waitExpiry p h => exact waitExpiry_queuesEvolve s p h
  | holdExpiry p x => exact holdExpiry_queuesEvolve s p x
  | graceExpiry p x => exact graceExpiry_queuesEvolve s p x
  | phaseTimerExpiry x => exact phaseTimerExpiry_queuesEvolve s x
  | confirmFilterChange c => exact confirmFilterChange_queuesEvolve s c
  | guardElapsed x => exact ⟨_, rfl, report x _ _ fun u => u.onGuardElapsed_queuesEvolve x⟩
  | releaseSeen x => exact ⟨_, rfl, report x _ _ fun u => u.onReleaseSeen_queuesEvolve x⟩
  | verifyTimeout x => exact ⟨_, rfl, report x _ _ fun u => (u.onVerifyTimeout_tableEvent x).queuesEvolve⟩
  | engagedSeen x => exact ⟨_, rfl, report x _ _ fun u => (u.onEngagedSeen_tableEvent x).queuesEvolve⟩
  | engageTimeout x => exact ⟨_, rfl, report x _ _ fun u => (u.onEngageTimeout_tableEvent x).queuesEvolve⟩
  | confirmationLost x => exact ⟨_, rfl, report x _ _ fun u => (u.onConfirmationLost_tableEvent x).queuesEvolve⟩
  | pinReset => exact pinReset_queuesEvolve s

/-- A step runs a command, with some queue of commands behind it, or lets one unit of time pass. -/
theorem step_runs {s t : State} (h : step s = .next t) :
    t = s.tick ∨ ∃ i rest, exec i { s with pending := rest } = .next t := by
  unfold step at h
  split at h
  · exact .inr ⟨_, _, h⟩
  · unfold State.idle at h
    split at h
    · exact .inr ⟨_, s.pending, h⟩
    · exact .inl (Host.Outcome.next.inj h).symm

theorem step_queuesEvolve {s t : State} (h : step s = .next t) : s.QueuesEvolve t := by
  rcases step_runs h with rfl | ⟨i, rest, hi⟩
  · exact .same rfl
  · have taken : s.QueuesEvolve { s with pending := rest } := .same rfl
    obtain ⟨u, hu, evolves⟩ := exec_queuesEvolve i { s with pending := rest }
    rw [hu] at hi; cases hi
    exact taken.trans evolves

/-- Settles O54: every step lets the queues evolve (`step_queuesEvolve`), and distinct keys bound their length. -/
theorem stepsKeepTheQueueLaws : Obligations.StepsKeepTheQueueLaws :=
  ⟨fun _ _ laws h p => ⟨(step_queuesEvolve h p).law (laws p).1, (step_queuesEvolve h p).deliveredFirst (laws p).2⟩,
    fun _ law => law.length_le⟩

end Sys2Proof.Machine
end

section
/-! ## SUMMARY -/

namespace Sys2Proof.Machine

theorem SessionState.code_lt (st : SessionState) : st.code.toNat < 4 := by
  cases st <;> simp [SessionState.code]

section
variable (s : State) (p : Port)

/-- R185: the three fields of SUMMARY do not overlap, so that the byte is the sum of their weights. -/
theorem State.summary_toNat : (s.summary p).toNat =
    64 * (s.session p).state.code.toNat + (if s.supervisor = p then 32 else 0) + min 31 (s.queue p).undelivered := by
  have code := (s.session p).state.code_lt
  have low : (if s.supervisor = p then 0x20 else 0 : Byte).toNat ||| min 31 (s.queue p).undelivered =
      (if s.supervisor = p then 32 else 0) + min 31 (s.queue p).undelivered := by
    split
    · exact (Nat.shiftLeft_add_eq_or_of_lt (i := 5) (Nat.lt_succ_of_le (Nat.min_le_left ..)) 1).symm
    · exact (Nat.zero_or _).trans (Nat.zero_add _).symm
  have bound : (if s.supervisor = p then 32 else 0) + min 31 (s.queue p).undelivered < 2 ^ 6 := by split <;> omega
  have shifted : (s.session p).state.code.toNat <<< 6 % 2 ^ 8 = (s.session p).state.code.toNat <<< 6 :=
    Nat.mod_eq_of_lt (by rw [Nat.shiftLeft_eq]; omega)
  have count : min 31 (s.queue p).undelivered % 2 ^ 8 = min 31 (s.queue p).undelivered := Nat.mod_eq_of_lt (by omega)
  rw [State.summary, BitVec.toNat_or, BitVec.toNat_or, BitVec.toNat_shiftLeft, byteOf, BitVec.toNat_ofNat, shifted, count,
    Nat.or_assoc, low, ← Nat.shiftLeft_add_eq_or_of_lt bound, Nat.shiftLeft_eq]
  omega

theorem State.summary_state : (s.summary p) >>> 6 = (s.session p).state.code := by
  apply BitVec.eq_of_toNat_eq
  rw [BitVec.toNat_ushiftRight, s.summary_toNat, Nat.shiftRight_eq_div_pow]
  split <;> omega

theorem State.summary_role : (s.summary p).getLsbD 5 = true ↔ s.supervisor = p := by
  rw [BitVec.getLsbD, s.summary_toNat, Nat.testBit_eq_decide_div_mod_eq, decide_eq_true_eq]
  split
  · next h => exact ⟨fun _ => h, fun _ => by omega⟩
  · next h => exact ⟨fun _ => by omega, fun e => absurd e h⟩

theorem State.summary_count : ((s.summary p) &&& 0x1F).toNat = min 31 (s.queue p).undelivered := by
  rw [BitVec.toNat_and, s.summary_toNat]
  refine (Nat.and_two_pow_sub_one_eq_mod _ 5).trans ?_
  split <;> omega

/-- R141: the attention output is asserted exactly while an undelivered entry stands, where a closed port has none (R120). -/
theorem State.attention_iff (closed : s.isOpen p = false → (s.queue p).entries = []) :
    s.attention p = true ↔ 0 < (s.queue p).undelivered := by
  rw [State.attention, Bool.and_eq_true, decide_eq_true_eq]
  refine ⟨And.right, fun h => ⟨?_, h⟩⟩
  by_contra hc
  rw [NoticeQueue.undelivered, closed (by simpa using hc)] at h
  exact absurd h (Nat.lt_irrefl 0)
end

/-- Settles O11, from the weights of SUMMARY's fields (`State.summary_toNat`). -/
theorem summaryDescribesThePort : Obligations.SummaryDescribesThePort := by
  refine fun s p closed => ⟨s.summary_state p, s.summary_role p, s.summary_count p, ?_, fun _ _ _ _ _ => rfl⟩
  have zero : (s.summary p) &&& 0x1F = 0 ↔ (s.queue p).undelivered = 0 := by
    rw [← BitVec.toNat_inj, s.summary_count]
    show min 31 (s.queue p).undelivered = 0 ↔ _
    omega
  rw [zero, ← Bool.not_eq_true, s.attention_iff p closed]
  omega

end Sys2Proof.Machine
end

section
/-! ## FETCH -/

namespace Sys2Proof.Machine

/-! ### The acknowledged run -/

section
variable {ack : Word16} {q : NoticeQueue} {e : Entry} {pre post : List Entry}

/-- R136: 0, or a number that no delivered entry carries, acknowledges nothing. -/
theorem ackedEntries_none {es : List Entry} (h : ack = 0 ∨ ∀ e ∈ es, e.delivered = true → e.seq ≠ ack) :
    ackedEntries ack es = [] := by
  unfold ackedEntries
  split
  · rfl
  · next h0 =>
    have absent : (es.findIdx? fun e => e.delivered && e.seq == ack) = none := by
      rw [List.findIdx?_eq_none_iff]
      exact fun e he => by simpa using (h.resolve_left h0) e he
    rw [absent]

/-- R136: the run from the head up to the delivered entry with the number, where no entry before it carries that number. -/
theorem ackedEntries_run (hd : e.delivered = true) (hs : e.seq = ack) (h0 : ack ≠ 0) (hpre : ∀ d ∈ pre, d.seq ≠ ack) :
    ackedEntries ack (pre ++ e :: post) = pre ++ [e] := by
  have before : (pre.findIdx? fun d => d.delivered && d.seq == ack) = none := by
    rw [List.findIdx?_eq_none_iff]
    exact fun d hmem => by simp [hpre d hmem]
  have found : ((pre ++ e :: post).findIdx? fun d => d.delivered && d.seq == ack) = some pre.length := by
    rw [List.findIdx?_append, before, List.findIdx?_cons]
    simp [hd, hs]
  unfold ackedEntries
  rw [if_neg h0, found]
  simp [List.take_append]

/-- R133: no entry before another carries its number. -/
theorem NoticeQueue.Law.seq_ne (law : q.Law) (h : q.entries = pre ++ e :: post) : ∀ d ∈ pre, d.seq ≠ e.seq := by
  have seqs := law.seqs
  rw [h, List.map_append, List.nodup_append] at seqs
  obtain ⟨-, -, distinct⟩ := seqs
  exact fun d hd => distinct _ (List.mem_map_of_mem hd) _ (by simp)

/-- R134: every entry before a delivered one is delivered. -/
theorem runFirst.delivered_before (h : runFirst (pre ++ e :: post)) (he : e.delivered = true) :
    ∀ d ∈ pre, d.delivered = true := by
  induction pre with
  | nil => nofun
  | cons d pre ih =>
    rw [List.cons_append, runFirst] at h
    split at h
    · next hd => exact List.forall_mem_cons.mpr ⟨hd, ih h⟩
    · exact absurd he (by simp [h e (by simp)])
end

/-! ### The delivery -/

/-- R137: of the undelivered entries, the oldest `n` are so no longer. -/
theorem deliver_undelivered (n : Nat) (es : List Entry) :
    (deliver n es).countP (fun e => !e.delivered) = (es.countP fun e => !e.delivered) - n := by
  induction es generalizing n with
  | nil => cases n <;> simp [deliver]
  | cons e es ih =>
    cases n with
    | zero => rfl
    | succ n =>
      rw [deliver]
      split
      · next hd => simp [hd, ih]
      · next hd => simp [hd, ih]

/-- R137: an entry returned stands in the queue, delivered. -/
theorem deliver_marks {n : Nat} {es : List Entry} {e : Entry} (h : e ∈ delivered n es) :
    { e with delivered := true } ∈ deliver n es := by
  induction es generalizing n with
  | nil => simp [delivered] at h
  | cons d es ih =>
    cases n with
    | zero => simp [delivered] at h
    | succ n =>
      unfold delivered at h ih
      rw [deliver]
      split
      · next hd => exact List.mem_cons_of_mem _ (ih (by simpa [hd] using h))
      · next hd =>
        rcases (by simpa [hd] using h : e = d ∨ _) with rfl | h
        · exact List.mem_cons_self
        · exact List.mem_cons_of_mem _ (ih h)

/-! ### The execution -/

section
variable (q : NoticeQueue) (ack : Word16) (redeliver : Bool)

/-- The queue that FETCH leaves (R136, R137). -/
def NoticeQueue.fetched : NoticeQueue := { q with entries := deliver Config.fetchRecords (q.acknowledge ack redeliver) }

/-- The reply body of FETCH (R138). -/
def NoticeQueue.fetchBody : List Byte :=
  [byteOf (ackedEntries ack q.entries).length, byteOf (q.fetched ack redeliver).undelivered,
    byteOf (delivered Config.fetchRecords (q.acknowledge ack redeliver)).length] ++
  (delivered Config.fetchRecords (q.acknowledge ack redeliver)).flatMap Entry.record

/-- The state that the execution of FETCH leaves (R136 to R138). -/
def State.afterFetch (s : State) (p : Port) : State :=
  { s.setQueue p ((s.queue p).fetched ack redeliver) with
    ackEvents := s.ackEvents ++ ackEventsOf p (s.queue p).incarnation (ackedEntries ack (s.queue p).entries) }

theorem State.fetchNotices_eq (s : State) (p : Port) : s.fetchNotices p ack redeliver =
    .executed .ok ((s.queue p).fetchBody ack redeliver) (s.afterFetch ack redeliver p) := rfl

/-- No entry that FETCH leaves changes its number or its notice. -/
theorem NoticeQueue.fetched_entries : (q.fetched ack redeliver).entries.map (fun e => (e.seq, e.notice)) =
    (q.entries.drop (ackedEntries ack q.entries).length).map fun e => (e.seq, e.notice) := by
  rw [NoticeQueue.fetched, deliver_map _ fun _ _ => rfl, acknowledge_map _ fun _ _ => rfl, List.map_drop]

theorem NoticeQueue.fetched_undelivered : (q.fetched ack redeliver).undelivered =
    ((q.acknowledge ack redeliver).filter fun e => !e.delivered).length
      - (delivered Config.fetchRecords (q.acknowledge ack redeliver)).length := by
  rw [NoticeQueue.undelivered, NoticeQueue.fetched, deliver_undelivered, List.countP_eq_length_filter, delivered,
    List.length_take]
  omega
end

section
variable {s : State} {p : Port} {f : Frame}

/-- The redeliver byte of a FETCH that passes its checks (R135, R137). -/
theorem badRedeliver_iff {b : Byte} : (b != 0 && b != 1) = true ↔ 1 < b.toNat := by
  simp only [Bool.and_eq_true, bne_iff_ne]
  constructor
  · rintro ⟨h0, h1⟩
    bv_omega
  · intro h
    constructor <;> bv_omega

theorem State.OpenFor.fetch_verdict (ho : s.OpenFor p f) : RequestKind.fetch.verdict p f (s.taking .fetch p f) =
    if 1 < (f.byte 2).toNat then .refused .badParameter
    else (s.taking .fetch p f).fetchNotices p (f.word 0) (f.byte 2 == 1) := by
  refine (Verdict.checked_append (State.sessionChecks_open ho.taking)).trans ?_
  rw [Verdict.checked_cons, Verdict.checked_nil]
  exact if_congr badRedeliver_iff rfl rfl

/-- What the taking of a FETCH, its execution and its reply leave of the part beside the queue of its port. -/
theorem State.afterFetch_leaves (s : State) (p : Port) (f : Frame) (ack : Word16) (redeliver : Bool) (body : List Byte) :
    let u := ((s.taking .fetch p f).afterFetch ack redeliver p).place p f .ok body true
    u.liveReports = s.liveReports ∧ s.SameClaimTable u ∧ s.SameSupervision u ∧ s.SameInputs u ∧ s.SameOtherPorts u p := by
  obtain ⟨claims, slots, resources, lineReports⟩ := s.taking_sameClaimTable .fetch p f
  obtain ⟨mode, supervisor, threshold, recovery, filterTime⟩ := s.taking_sameSupervision .fetch p f
  obtain ⟨confirm, sever, now, pending⟩ := s.taking_sameInputs .fetch p f
  have live := s.taking_liveReports .fetch p f
  have others : s.SameOtherPorts (s.taking .fetch p f) p := fun q hq =>
    ⟨s.taking_session_other .fetch p f q hq, s.taking_queue .fetch p f q, State.taking_port_other hq⟩
  generalize s.taking .fetch p f = t at *
  refine ⟨live, ⟨claims, slots, resources, lineReports⟩, ⟨mode, supervisor, threshold, recovery, filterTime⟩,
    ⟨confirm, sever, now, pending⟩, fun q hq => ?_⟩
  obtain ⟨session, queue, port⟩ := others q hq
  exact ⟨session, (t.queue_setQueue p q _).trans ((if_neg (Ne.symm hq)).trans queue), (State.place_port_other hq).trans port⟩

theorem State.queue_afterFetch (s : State) (p : Port) (ack : Word16) (redeliver : Bool) :
    (s.afterFetch ack redeliver p).queue p = (s.queue p).fetched ack redeliver :=
  (s.queue_setQueue p p _).trans (if_pos rfl)

/-- A FETCH with a good redeliver byte is executed (R135). -/
theorem State.Offered.fetch_executed (h : s.Offered .fetch p f) (ho : s.OpenFor p f) (good : (f.byte 2).toNat ≤ 1) :
    let body := (s.queue p).fetchBody (f.word 0) (f.byte 2 == 1)
    let u := ((s.taking .fetch p f).afterFetch (f.word 0) (f.byte 2 == 1) p).place p f .ok body true
    exec (.fetch p) s = .next u ∧ s.Answered u p f .ok body := by
  have verdict := ho.fetch_verdict
  rw [if_neg (Nat.not_lt.mpr good), State.fetchNotices_eq, State.taking_queue] at verdict
  obtain ⟨hexec, hans, -⟩ := h.executed verdict
  exact ⟨hexec, hans⟩
end

/-! ### The obligation -/

/-- Settles O31: FETCH leaves `State.afterFetch` and answers with `NoticeQueue.fetchBody`, and `ackedEntries_run` says which
entries an acknowledgement number removes. -/
theorem fetchAcknowledgesAndDelivers : Obligations.FetchAcknowledgesAndDelivers := by
  refine ⟨fun p f s h ho => ⟨fun bad => ?_, fun good => ?_⟩, fun ack q => ⟨ackedEntries_none, ?_⟩⟩
  · exact h.refused (ho.fetch_verdict.trans (if_pos bad)) nofun
  · intro q removed kept left out
    have hleft : q.acknowledge (f.word 0) (f.byte 2 == 1) = left := if_congr beq_iff_eq rfl rfl
    obtain ⟨hexec, hans⟩ := h.fetch_executed ho good
    obtain ⟨live, same⟩ := s.afterFetch_leaves p f (f.word 0) (f.byte 2 == 1) (q.fetchBody (f.word 0) (f.byte 2 == 1))
    have queue : ((s.taking .fetch p f).afterFetch (f.word 0) (f.byte 2 == 1) p).queue p =
        q.fetched (f.word 0) (f.byte 2 == 1) := by rw [State.queue_afterFetch, State.taking_queue]
    have body : q.fetchBody (f.word 0) (f.byte 2 == 1) =
        [byteOf removed.length, byteOf (q.fetched (f.word 0) (f.byte 2 == 1)).undelivered, byteOf out.length]
          ++ out.flatMap Entry.record := by
      rw [NoticeQueue.fetchBody, hleft]
      rfl
    refine ⟨_, hexec, ?_⟩
    rw [State.queue_place, queue]
    refine ⟨q.fetched_entries _ _, ?_, fun e he => ?_, rfl, rfl, ?_, ?_, live, same⟩
    · rw [q.fetched_undelivered, hleft]
      rfl
    · have returned : e ∈ delivered Config.fetchRecords left := he
      rw [← hleft] at returned
      exact deliver_marks returned
    · exact (congrArg (s.Answered _ p f .ok) body).mp hans
    · show (s.taking .fetch p f).ackEvents ++ ackEventsOf p ((s.taking .fetch p f).queue p).incarnation _ = _
      rw [State.taking_ackEvents, State.taking_queue]
      rfl
  · rintro pre e post hq hd rfl h0 law
    rw [hq]
    refine ⟨ackedEntries_run hd rfl h0 (law.seq_ne hq), fun first => ?_⟩
    rw [NoticeQueue.deliveredFirst_iff, hq] at first
    exact first.delivered_before hd

end Sys2Proof.Machine
end

section
/-! ## The supervisor role -/

namespace Sys2Proof.Machine

section
variable {s : State} {p k : Port} {f : Frame}

/-- The parameter check of a SET_SUPERVISOR, behind its session and permission checks (R153). -/
theorem State.OpenFor.setSupervisor_verdict (ho : s.OpenFor p f) (hp : p = s.supervisor) :
    RequestKind.setSupervisor.verdict p f (s.taking .setSupervisor p f) =
      if 5 < (f.byte 0).toNat then .refused .badParameter
      else .executed .ok [byteOf (portOf (f.byte 0))]
        { s.taking .setSupervisor p f with supervisor := portOf (f.byte 0) } := by
  refine (Verdict.checked_append (State.supervisorChecks_open ho.taking (by simpa using hp))).trans ?_
  simp

theorem State.Offered.setSupervisor_executed (h : s.Offered .setSupervisor p f) (ho : s.OpenFor p f)
    (hp : p = s.supervisor) (hk : (f.byte 0).toNat = k.val) :
    exec (.setSupervisor p) s =
      .next (({ s.taking .setSupervisor p f with supervisor := k } : State).place p f .ok [byteOf k] true) := by
  have verdict := ho.setSupervisor_verdict hp
  rw [if_neg (by have := k.isLt; omega), portOf_eq hk] at verdict
  exact (h.executed verdict).1
end

/-- Settles O37: the parameter check stands behind the session and permission checks, and the execution writes one field. -/
theorem supervisorRoleMoves : Obligations.SupervisorRoleMoves := fun _ _ _ h ho hp =>
  ⟨fun bad => h.refused ((ho.setSupervisor_verdict hp).trans (if_pos bad)) nofun,
    fun _ hk => h.setSupervisor_executed ho hp hk⟩

end Sys2Proof.Machine
end

section
/-! ## What a change of mode leaves alone -/

namespace Sys2Proof.Machine

/-- What no change of mode writes (R147 to R149): the sessions, the Port Interfaces, the supervisor port and the limits, the
inputs, and the events waiting to be taken but for the Line Unit's and the drain's reports. -/
structure State.SameButMode (s t : State) : Prop where
  sessions : t.sessions = s.sessions
  ports : t.ports = s.ports
  supervisor : t.supervisor = s.supervisor
  threshold : t.threshold = s.threshold
  recovery : t.recovery = s.recovery
  filterTime : t.filterTime = s.filterTime
  inputs : s.SameInputs t
  events : s.SameEvents t

section
variable {s t u : State} {k : RequestKind} {p : Port} {f : Frame}

theorem State.SameButMode.trans (a : s.SameButMode t) (b : t.SameButMode u) : s.SameButMode u where
  sessions := b.sessions.trans a.sessions
  ports := b.ports.trans a.ports
  supervisor := b.supervisor.trans a.supervisor
  threshold := b.threshold.trans a.threshold
  recovery := b.recovery.trans a.recovery
  filterTime := b.filterTime.trans a.filterTime
  inputs := a.inputs.trans b.inputs
  events := ⟨b.events.ackEvents.trans a.events.ackEvents, b.events.liveReports.trans a.events.liveReports⟩

theorem State.SameOutsideClaimTable.sameButMode (a : s.SameOutsideClaimTable t) : s.SameButMode t :=
  ⟨a.sessions, a.ports, a.supervisor, a.threshold, a.recovery, a.filterTime, a.inputs, a.events⟩

theorem State.changeMode_sameButMode (s : State) (m : DeviceMode) : s.SameButMode (s.changeMode m) :=
  ⟨rfl, rfl, rfl, rfl, rfl, rfl, ⟨rfl, rfl, rfl, rfl⟩, rfl, rfl⟩

theorem State.SameButMode.isOpen (a : s.SameButMode t) (q : Port) : t.isOpen q = s.isOpen q := by
  simp [State.isOpen, State.session, a.sessions]

/-- The taking of a request and its reply write the session and the Port Interface of its own port only. -/
theorem State.SameButMode.placed (a : (s.taking k p f).SameButMode t) (st : Status) (body : List Byte) :
    let u := t.place p f st body true
    u.supervisor = s.supervisor ∧ u.threshold = s.threshold ∧ u.recovery = s.recovery ∧ u.filterTime = s.filterTime
      ∧ s.SameInputs u ∧ s.SameEvents u ∧ ∀ q, q ≠ p → u.session q = s.session q ∧ u.port q = s.port q := by
  intro u
  obtain ⟨-, supervisor, threshold, recovery, filterTime⟩ := s.taking_sameSupervision k p f
  refine ⟨a.supervisor.trans supervisor, a.threshold.trans threshold, a.recovery.trans recovery,
    a.filterTime.trans filterTime, (s.taking_sameInputs k p f).trans (a.inputs.trans (t.place_sameInputs ..)),
    ⟨a.events.ackEvents.trans (s.taking_ackEvents k p f), a.events.liveReports.trans (s.taking_liveReports k p f)⟩,
    fun q hq => ⟨?_, ?_⟩⟩
  · rw [State.session_place, State.session, a.sessions]
    exact s.taking_session_other k p f q hq
  · rw [State.place_port_other hq, State.port, a.ports]
    exact State.taking_port_other hq

/-! ### The notices of a change of mode -/

/-- R150: every open session has the notice of a change of mode. -/
theorem State.notifyMode_hasNotice (m : DeviceMode) {q : Port} (hq : s.isOpen q = true) :
    (s.notifyMode m).HasNotice q (.modeChanged m) := by
  rw [State.HasNotice, State.queue_notifyMode, if_pos hq]
  exact ⟨_, (NoticeQueue.mem_add _ _ _).mpr (.inr rfl), rfl, rfl⟩

/-- The notice of a change of mode takes the place of an earlier one only (R132). -/
theorem State.HasNotice.notifyMode (m : DeviceMode) {q : Port} {n : Notice} (hn : s.HasNotice q n) (hk : n.key ≠ .mode) :
    (s.notifyMode m).HasNotice q n := by
  obtain ⟨e, he, rfl, hd⟩ := hn
  rw [State.HasNotice, State.queue_notifyMode]
  split
  · exact ⟨e, (NoticeQueue.mem_add _ _ _).mpr (.inl ⟨he, hk⟩), rfl, hd⟩
  · exact ⟨e, he, rfl, hd⟩

/-! ### The end of a drain -/

theorem State.drainToSetup_mode (s : State) : s.drainToSetup.mode = .setup :=
  (State.notifyMode_tableEvent _ .setup).outside.mode

theorem State.drainToSetup_sameButMode (s : State) : s.SameButMode s.drainToSetup :=
  State.SameButMode.trans (t := { s with mode := .setup }) ⟨rfl, rfl, rfl, rfl, rfl, rfl, ⟨rfl, rfl, rfl, rfl⟩, rfl, rfl⟩
    (State.notifyMode_tableEvent _ .setup).outside.sameButMode

theorem State.drainToSetup_table (s : State) : s.SameClaimTable s.drainToSetup := by
  obtain ⟨claims, slots, resources, lineReports⟩ := State.notifyMode_table { s with mode := .setup } .setup
  exact ⟨claims, slots, resources, lineReports⟩

theorem State.drainToSetup_hasNotice {q : Port} (hq : s.isOpen q = true) : s.drainToSetup.HasNotice q (.modeChanged .setup) :=
  State.notifyMode_hasNotice (s := { s with mode := .setup }) .setup hq

theorem State.HasNotice.drainToSetup {q : Port} {n : Notice} (hn : s.HasNotice q n) (hk : n.key ≠ .mode) :
    s.drainToSetup.HasNotice q n :=
  State.HasNotice.notifyMode (s := { s with mode := .setup }) .setup hn hk
end

theorem exec_noClaimsRemain {s : State} {current : Bool} {rest : List Bool} (hr : s.drainReports = current :: rest) :
    exec .noClaimsRemain s = .next (if current = true ∧ s.mode = .quiesce
      then ({ s with drainReports := rest } : State).drainToSetup else { s with drainReports := rest }) := by
  show execNoClaimsRemain s = _
  unfold execNoClaimsRemain
  rw [hr]

/-- Settles O43: a report that counts is `State.drainToSetup`, which writes the mode and the notices only. -/
theorem drainReportsEndInSetup : Obligations.DrainReportsEndInSetup := by
  intro current rest s hr t
  rw [exec_noClaimsRemain hr]
  refine ⟨fun h => ?_, fun hc hm => ⟨_, congrArg _ (if_pos ⟨hc, hm⟩), ?_⟩⟩
  · rw [if_neg]
    rintro ⟨hc, hm⟩
    exact h.elim (fun h => by rw [hc] at h; cases h) (absurd hm)
  · obtain ⟨claims, slots, resources, lineReports⟩ := t.drainToSetup_table
    obtain ⟨sessions, ports, supervisor, threshold, recovery, filterTime, inputs, events⟩ := t.drainToSetup_sameButMode
    exact ⟨t.drainToSetup_mode, State.queue_notifyMode _ .setup, (State.notifyMode_tableEvent _ .setup).drainReports,
      claims, slots, resources, lineReports, sessions, ports, supervisor, threshold, recovery, filterTime,
      ⟨inputs.confirmInputs, inputs.severInputs, inputs.now, inputs.pending⟩, ⟨events.ackEvents, events.liveReports⟩⟩

end Sys2Proof.Machine
end

section
/-! ## SET_MODE

The withdrawal of R49 is a walk over all slots. It keeps the law of the table, so each step takes WAITING claims only, and no
resource and no other request is touched. -/

namespace Sys2Proof.Machine

/-! ### The withdrawal of the waiting requests -/

/-- The withdrawal of one request, where it is WAITING (R49). -/
def State.withdraw (s : State) (r : Port × Handle) : State :=
  if (s.slot r.1 r.2).isWaiting = true then s.endRequest r.1 r.2 .withdrawn (.withdrawn r.2) else s

theorem State.withdrawAll_eq (s : State) :
    s.withdrawAll = (List.product (List.finRange 6) (List.finRange 8)).foldl State.withdraw s := by
  unfold State.withdrawAll
  simp only [List.product, List.foldl_flatMap, List.foldl_map]
  generalize List.finRange 6 = ports, List.finRange 8 = handles
  congr 1
  funext s p
  congr 1
  funext s h
  rw [State.withdraw]
  cases s.slot p h <;> rfl

section
variable {s t u : State} {p q : Port} {h k : Handle} {r : Port × Handle}

/-! #### One request -/

/-- A WAITING slot becomes DONE with outcome WITHDRAWN, and any other stays as it is (R49). -/
def Slot.withdrawn (v : Slot) : Slot := if v.isWaiting = true then v.ended .withdrawn else v

theorem Slot.withdrawn_idle {v : Slot} (hw : v.isWaiting = false) : v.withdrawn = v := if_neg (ne_true_of_eq_false hw)

theorem Slot.withdrawn_isWaiting (v : Slot) : v.withdrawn.isWaiting = false := by cases v <;> rfl

theorem Slot.isOpen_of_isWaiting {v : Slot} (hw : v.isWaiting = true) : v.isOpen = true := by
  cases v with
  | waiting => rfl
  | free | assembling | done => cases hw

/-- R23: the claims of a WAITING request are WAITING. -/
theorem State.TableLaw.waiting_of_slot (law : s.TableLaw) (hw : (s.slot p h).isWaiting = true) {c : Claim}
    (hc : c ∈ s.claims) (ho : Claim.ofRequest p h c = true) : c.state.isWaiting = true := by
  obtain ⟨rfl, hh⟩ := Claim.ofRequest_iff.mp ho
  have backs := law.backed c hc h hh
  cases hs : s.slot c.owner h with
  | waiting f tm =>
    rw [hs] at backs
    exact backs.1
  | free | assembling | done => rw [hs] at hw; cases hw

/-- Claims that wait leave without an effect on their resources (R44). -/
theorem State.removeClaims_of_waiting {sel : Claim → Bool}
    (hsel : ∀ c ∈ s.claims, sel c = true → c.state.isWaiting = true) :
    s.removeClaims sel = s.setClaims (s.claims.filter fun c => !sel c) := by
  have none : (s.claims.filter fun c => sel c && c.state.isAssigned) = [] := by
    refine List.filter_eq_nil_iff.mpr fun c hc h => ?_
    obtain ⟨hs, ha⟩ := Bool.and_eq_true_iff.mp h
    obtain ⟨k, e⟩ := ClaimState.isWaiting_iff.mp (hsel c hc hs)
    rw [e] at ha
    cases ha
  rw [State.removeClaims, none]
  rfl

theorem State.withdraw_waiting (hw : (s.slot r.1 r.2).isWaiting = true) :
    s.withdraw r = s.endRequest r.1 r.2 .withdrawn (.withdrawn r.2) := if_pos hw

theorem State.withdraw_idle (hw : (s.slot r.1 r.2).isWaiting = false) : s.withdraw r = s :=
  if_neg (ne_true_of_eq_false hw)

theorem State.withdraw_tableEvent (s : State) (r : Port × Handle) : s.TableEvent (s.withdraw r) := by
  cases hw : (s.slot r.1 r.2).isWaiting with
  | false => rw [State.withdraw_idle hw]; exact .refl s
  | true => rw [State.withdraw_waiting hw]; exact s.endRequest_tableEvent ..

theorem State.TableLaw.withdraw (law : s.TableLaw) (r : Port × Handle) : (s.withdraw r).TableLaw := by
  cases hw : (s.slot r.1 r.2).isWaiting with
  | false => rwa [State.withdraw_idle hw]
  | true => rw [State.withdraw_waiting hw]; exact (s.endRequest_proceeds ..).advances.law law

theorem State.withdraw_slot (s : State) (r : Port × Handle) (q : Port) (k : Handle) :
    (s.withdraw r).slot q k = if r = (q, k) then (s.slot q k).withdrawn else s.slot q k := by
  cases hw : (s.slot r.1 r.2).isWaiting with
  | false =>
    rw [State.withdraw_idle hw]
    split
    · next e => subst e; exact (Slot.withdrawn_idle hw).symm
    · rfl
  | true =>
    rw [State.withdraw_waiting hw, State.endRequest_slot]
    by_cases e : r = (q, k)
    · subst e; rw [if_pos ⟨rfl, rfl⟩, if_pos rfl, Slot.withdrawn, if_pos hw]
    · rw [if_neg e, if_neg fun e' => e (Prod.ext e'.1 e'.2)]

/-- A withdrawal takes no claim but WAITING ones (R23, R49). -/
theorem State.TableLaw.withdraw_others (law : s.TableLaw) (r : Port × Handle) :
    ((s.withdraw r).claims.filter fun c => !c.state.isWaiting) = s.claims.filter fun c => !c.state.isWaiting := by
  cases hw : (s.slot r.1 r.2).isWaiting with
  | false => rw [State.withdraw_idle hw]
  | true =>
    rw [State.withdraw_waiting hw, State.endRequest_claims, if_pos (Slot.isOpen_of_isWaiting hw), List.filter_filter]
    refine List.filter_congr fun c hc => ?_
    cases hr : Claim.ofRequest r.1 r.2 c with
    | false => simp
    | true => simp [law.waiting_of_slot hw hc hr]

/-- A withdrawal unwinds no resource (R23, R44). -/
theorem State.TableLaw.withdraw_resources (law : s.TableLaw) (r : Port × Handle) :
    (s.withdraw r).resources = s.resources ∧ (s.withdraw r).lineReports = s.lineReports := by
  cases hw : (s.slot r.1 r.2).isWaiting with
  | false => rw [State.withdraw_idle hw]; exact ⟨rfl, rfl⟩
  | true =>
    rw [State.withdraw_waiting hw, State.endRequest_open _ _ _ _ _ (Slot.isOpen_of_isWaiting hw),
      State.removeClaims_of_waiting fun c hc => law.waiting_of_slot hw hc, State.setSlot_resources, State.notify_resources,
      State.setSlot_lineReports, State.notify_lineReports]
    exact ⟨rfl, rfl⟩

/-- The withdrawal of a WAITING request tells its session (R49). -/
theorem State.withdraw_hasNotice (hw : (s.slot q k).isWaiting = true) (hq : s.isOpen q = true) :
    (s.withdraw (q, k)).HasNotice q (.withdrawn k) := by
  rw [State.withdraw_waiting hw]
  exact s.endRequest_hasNotice q k _ _ (Slot.isOpen_of_isWaiting hw) hq

/-- A notice stays, unless it is keyed by the handle of the WAITING request withdrawn (R132). -/
theorem State.HasNotice.withdraw {n : Notice} (hn : s.HasNotice q n) (r : Port × Handle)
    (hk : r.1 = q → n.key = .handle r.2 → (s.slot r.1 r.2).isWaiting = false) : (s.withdraw r).HasNotice q n := by
  cases hw : (s.slot r.1 r.2).isWaiting with
  | false => rwa [State.withdraw_idle hw]
  | true =>
    rw [State.withdraw_waiting hw]
    exact hn.endRequest _ _ _ _ _ fun e e' => by rw [hk e e'.symm] at hw; cases hw

/-! #### All requests -/

/-- What the withdrawal of some of the WAITING requests has made of a state (R49). -/
structure State.Withdraws (s u : State) : Prop where
  law : u.TableLaw
  event : s.TableEvent u
  others : (u.claims.filter fun c => !c.state.isWaiting) = s.claims.filter fun c => !c.state.isWaiting
  resources : u.resources = s.resources
  lineReports : u.lineReports = s.lineReports
  slot : ∀ q k, u.slot q k = s.slot q k ∨ u.slot q k = (s.slot q k).withdrawn
  notice : ∀ q k, (s.slot q k).isWaiting = true → (u.slot q k).isWaiting = false → s.isOpen q = true →
    u.HasNotice q (.withdrawn k)
  modeNotice : ∀ q n, n.key = .mode → s.HasNotice q n → u.HasNotice q n

theorem State.Withdraws.refl (law : s.TableLaw) : s.Withdraws s where
  law := law
  event := .refl s
  others := rfl
  resources := rfl
  lineReports := rfl
  slot _ _ := .inl rfl
  notice _ _ hs hw := by rw [hs] at hw; cases hw
  modeNotice _ _ _ hn := hn

theorem State.Withdraws.withdraw (a : s.Withdraws u) (r : Port × Handle) : s.Withdraws (u.withdraw r) where
  law := a.law.withdraw r
  event := a.event.trans (u.withdraw_tableEvent r)
  others := (a.law.withdraw_others r).trans a.others
  resources := (a.law.withdraw_resources r).1.trans a.resources
  lineReports := (a.law.withdraw_resources r).2.trans a.lineReports
  slot q k := by
    rw [State.withdraw_slot]
    split
    · obtain same | done := a.slot q k
      · exact .inr (by rw [same])
      · exact .inr (by rw [Slot.withdrawn_idle (by rw [done]; exact Slot.withdrawn_isWaiting _), done])
    · exact a.slot q k
  notice q k hs hw hq := by
    cases hu : (u.slot q k).isWaiting with
    | false =>
      refine (a.notice q k hs hu hq).withdraw r fun e e' => ?_
      cases e
      cases e'
      exact hu
    | true =>
      have mine : r = (q, k) := by
        by_contra e
        rw [State.withdraw_slot, if_neg e, hu] at hw
        cases hw
      subst mine
      exact State.withdraw_hasNotice hu ((a.event.outside.isOpen q).trans hq)
  modeNotice q n hk hn := (a.modeNotice q n hk hn).withdraw r fun _ e => by rw [hk] at e; cases e

/-- The walk leaves no request of its list WAITING, and makes none WAITING. -/
theorem State.foldl_withdraw_isWaiting (rs : List (Port × Handle)) (s : State)
    (hw : (q, k) ∈ rs ∨ (s.slot q k).isWaiting = false) : ((rs.foldl State.withdraw s).slot q k).isWaiting = false := by
  induction rs generalizing s with
  | nil => exact hw.resolve_left List.not_mem_nil
  | cons r rs ih =>
    refine ih _ ?_
    by_cases e : r = (q, k)
    · exact .inr (by rw [State.withdraw_slot, if_pos e]; exact Slot.withdrawn_isWaiting _)
    · rw [State.withdraw_slot, if_neg e]
      exact hw.imp (fun hm => (List.mem_cons.mp hm).resolve_left (Ne.symm e)) id

theorem State.withdrawAll_withdraws (law : s.TableLaw) : s.Withdraws s.withdrawAll := by
  rw [State.withdrawAll_eq]
  exact List.foldlRecOn _ _ (.refl law) fun _ a r _ => a.withdraw r

theorem State.withdrawAll_isWaiting (s : State) (q : Port) (k : Handle) : (s.withdrawAll.slot q k).isWaiting = false := by
  rw [State.withdrawAll_eq]
  refine State.foldl_withdraw_isWaiting _ s (.inl ?_)
  exact List.mem_product.mpr ⟨List.mem_finRange q, List.mem_finRange k⟩

/-- R49: the withdrawal takes the WAITING claims and no others. -/
theorem State.withdrawAll_claims (law : s.TableLaw) :
    s.withdrawAll.claims = s.claims.filter fun c => !c.state.isWaiting := by
  have a := State.withdrawAll_withdraws law
  rw [← a.others, eq_comm, List.filter_eq_self]
  intro c hc
  cases hw : c.state.isWaiting with
  | false => rfl
  | true =>
    obtain ⟨h, e⟩ := ClaimState.isWaiting_iff.mp hw
    have waits := a.law.waits hc hw
    rw [e, ClaimState.handle, State.waits_some, s.withdrawAll_isWaiting c.owner h] at waits
    cases waits

/-- R49: every WAITING request is DONE with outcome WITHDRAWN, and its session is told. -/
theorem State.withdrawAll_withdrawn (law : s.TableLaw) {fl : Filing} {tm : Option Time} (hs : s.slot q k = .waiting fl tm) :
    s.withdrawAll.slot q k = .done fl.incarnation .withdrawn
      ∧ (s.isOpen q = true → s.withdrawAll.HasNotice q (.withdrawn k)) := by
  have walk := State.withdrawAll_withdraws law
  have done := s.withdrawAll_isWaiting q k
  refine ⟨?_, walk.notice q k (by rw [hs]; rfl) done⟩
  obtain same | withdrawn := walk.slot q k
  · rw [same, hs] at done
    cases done
  · rw [withdrawn, hs]
    rfl

theorem State.withdrawAll_slot (law : s.TableLaw) (hs : (s.slot q k).isWaiting = false) :
    s.withdrawAll.slot q k = s.slot q k := by
  have slot := (State.withdrawAll_withdraws law).slot q k
  rwa [Slot.withdrawn_idle hs, or_self] at slot
end

/-! ### The entry to QUIESCE -/

/-- The entry to QUIESCE before the pass on to SETUP: every WAITING request is withdrawn (R148). -/
def State.quiesced (s : State) : State := ((s.changeMode .quiesce).notifyMode .quiesce).withdrawAll

section
variable {s u : State}

theorem State.quiesced_mode (s : State) : s.quiesced.mode = .quiesce :=
  (State.withdrawAll_tableEvent _).outside.mode.trans (State.notifyMode_tableEvent _ .quiesce).outside.mode

theorem State.freeCount_eq_poolSize (s : State) : s.freeCount = Config.poolSize ↔ s.claims = [] := by
  have pool : 0 < Config.poolSize := by decide
  rw [State.freeCount, ← List.length_eq_zero_iff]
  omega

/-- The evaluation of R148 finds no request ready, for the mode is QUIESCE (R33). -/
theorem State.enterQuiesce_eq (s : State) :
    s.enterQuiesce = if s.quiesced.claims = [] then s.quiesced.drainToSetup else s.quiesced := by
  have idle : ∀ xs, s.quiesced.evaluate xs = s.quiesced := fun xs =>
    State.evaluate_not_service _ xs (by rw [State.quiesced_mode]; nofun)
  exact (congrArg (fun t : State => if t.freeCount = Config.poolSize then t.drainToSetup else t) (idle _)).trans
    (if_congr (State.freeCount_eq_poolSize _) rfl rfl)

/-- What SET_MODE QUIESCE makes of the requests, and what it leaves alone (R148). -/
structure State.Quiesces (s u : State) : Prop where
  claims : u.claims = s.claims.filter fun c => !c.state.isWaiting
  withdrawn : ∀ q k fl tm, s.slot q k = .waiting fl tm → u.slot q k = .done fl.incarnation .withdrawn
    ∧ (s.isOpen q = true → u.HasNotice q (.withdrawn k))
  slot : ∀ q k, (s.slot q k).isWaiting = false → u.slot q k = s.slot q k
  resources : u.resources = s.resources
  lineReports : u.lineReports = s.lineReports
  same : s.SameButMode u

/-- The pass on to SETUP touches no request and no notice but those of the mode (R148). -/
theorem State.Quiesces.drainToSetup (a : s.Quiesces u) : s.Quiesces u.drainToSetup := by
  obtain ⟨claims, slots, resources, lineReports⟩ := u.drainToSetup_table
  have slot : ∀ q k, u.drainToSetup.slot q k = u.slot q k := fun q k => by rw [State.slot, slots]; rfl
  refine ⟨claims.trans a.claims, fun q k fl tm hs => ?_, fun q k hs => (slot q k).trans (a.slot q k hs),
    resources.trans a.resources, lineReports.trans a.lineReports, a.same.trans u.drainToSetup_sameButMode⟩
  obtain ⟨done, notice⟩ := a.withdrawn q k fl tm hs
  exact ⟨(slot q k).trans done, fun hq => (notice hq).drainToSetup nofun⟩

/-- The law of the table stands while the mode passes to QUIESCE and the sessions are told (R145, R149). -/
theorem State.TableLaw.quiesceTold (law : s.TableLaw) : ((s.changeMode .quiesce).notifyMode .quiesce).TableLaw :=
  ((s.changeMode_advances (by simp)).trans (State.notifyMode_proceeds _ .quiesce)).law law

theorem State.quiesced_sameButMode (s : State) : s.SameButMode s.quiesced :=
  (s.changeMode_sameButMode .quiesce).trans
    ((State.notifyMode_tableEvent _ .quiesce).trans (State.withdrawAll_tableEvent _)).outside.sameButMode

theorem State.quiesced_quiesces (law : s.TableLaw) : s.Quiesces s.quiesced := by
  have told := law.quiesceTold
  obtain ⟨claims, slots, resources, lineReports⟩ := (s.changeMode .quiesce).notifyMode_table .quiesce
  have slot : ∀ q k, ((s.changeMode .quiesce).notifyMode .quiesce).slot q k = s.slot q k := fun q k => by
    rw [State.slot, slots]; rfl
  have isOpen : ∀ q, ((s.changeMode .quiesce).notifyMode .quiesce).isOpen q = s.isOpen q :=
    (State.notifyMode_tableEvent _ .quiesce).outside.isOpen
  have walk := State.withdrawAll_withdraws told
  refine ⟨?_, fun q k fl tm hs => ?_, fun q k hs => ?_, walk.resources.trans resources, walk.lineReports.trans lineReports,
    s.quiesced_sameButMode⟩
  · rw [State.quiesced, State.withdrawAll_claims told, claims, State.changeMode_claims]
  · rw [← isOpen]
    exact State.withdrawAll_withdrawn told ((slot q k).trans hs)
  · exact (State.withdrawAll_slot told (by rwa [slot])).trans (slot q k)

theorem State.enterQuiesce_quiesces (law : s.TableLaw) : s.Quiesces s.enterQuiesce := by
  rw [State.enterQuiesce_eq]
  split
  · exact (State.quiesced_quiesces law).drainToSetup
  · exact State.quiesced_quiesces law

theorem State.enterQuiesce_claims (s : State) : s.enterQuiesce.claims = s.quiesced.claims := by
  rw [State.enterQuiesce_eq]
  split
  · exact s.quiesced.drainToSetup_table.claims
  · rfl

/-- R148: where no claim is left the mode passes on to SETUP, and every open session is told. -/
theorem State.enterQuiesce_drained (left : s.enterQuiesce.claims = []) :
    s.enterQuiesce.mode = .setup ∧ ∀ q, s.isOpen q = true → s.enterQuiesce.HasNotice q (.modeChanged .setup) := by
  rw [State.enterQuiesce_claims] at left
  rw [State.enterQuiesce_eq, if_pos left]
  exact ⟨s.quiesced.drainToSetup_mode, fun q hq => State.drainToSetup_hasNotice ((s.quiesced_sameButMode.isOpen q).trans hq)⟩

/-- R148: where claims are left the mode stays QUIESCE, and the withdrawal leaves the notices of the change of mode. -/
theorem State.enterQuiesce_draining (law : s.TableLaw) (left : s.enterQuiesce.claims ≠ []) :
    s.enterQuiesce.mode = .quiesce ∧ ∀ q, s.isOpen q = true → s.enterQuiesce.HasNotice q (.modeChanged .quiesce) := by
  rw [State.enterQuiesce_claims] at left
  rw [State.enterQuiesce_eq, if_neg left]
  exact ⟨s.quiesced_mode, fun q hq =>
    (State.withdrawAll_withdraws law.quiesceTold).modeNotice q _ rfl (State.notifyMode_hasNotice .quiesce hq)⟩
end

/-! ### The entry to SERVICE -/

/-- What SET_MODE SERVICE makes of a state in another mode (R147). -/
structure State.EntersService (s u : State) : Prop where
  mode : u.mode = .service
  told : ∀ q, s.isOpen q = true → u.HasNotice q (.modeChanged .service)
  closed : ∀ q, s.isOpen q = false → u.queue q = s.queue q
  drainReports : true ∉ u.drainReports
  idle : s.claims = [] → s.SameClaimTable u ∧ ∀ q, s.isOpen q = true → u.queue q = (s.queue q).add (.modeChanged .service)
  same : s.SameButMode u

/-- R147: the evaluation follows the notices, and where nothing waits it does nothing. -/
theorem State.enterService_enters (s : State) : s.EntersService s.enterService := by
  have event := (State.notifyMode_tableEvent (s.changeMode .service) .service).trans
    (State.evaluate_tableEvent _ (List.finRange 64))
  refine ⟨event.outside.mode, fun q hq => ?_, event.closed, ?_, fun none => ?_,
    (s.changeMode_sameButMode .service).trans event.outside.sameButMode⟩
  · exact State.HasNotice.evaluateWith none _ _ (State.notifyMode_hasNotice .service hq) nofun
  · rw [show s.enterService.drainReports = _ from event.drainReports]
    exact s.changeMode_drainReports .service
  · obtain ⟨claims, slots, resources, lineReports⟩ := (s.changeMode .service).notifyMode_table .service
    have idle : s.enterService = (s.changeMode .service).notifyMode .service :=
      State.evaluate_nothing_waits _ _ fun x _ => by rw [State.waitQueue, claims, State.changeMode_claims, none]; rfl
    rw [idle]
    exact ⟨⟨claims, slots, resources, lineReports⟩, fun q hq => (State.queue_notifyMode _ .service q).trans (if_pos hq)⟩

/-! ### The request -/

section
variable {s : State} {p : Port} {f : Frame} {m : DeviceMode}

theorem DeviceMode.ofCode_code (m : DeviceMode) : DeviceMode.ofCode m.code = some m := by
  cases m <;> rfl

theorem DeviceMode.ofCode_of_lt {b : Byte} (h : 2 < b.toNat) : DeviceMode.ofCode b = none := by
  rw [DeviceMode.ofCode, if_neg (by bv_omega), if_neg (by bv_omega), if_neg (by bv_omega)]

/-- A byte that names no mode is refused by the parameter check, not by the mode check (R146, R191). -/
theorem State.OpenFor.setMode_unnamed (ho : s.OpenFor p f) (hp : p = s.supervisor)
    (hb : DeviceMode.ofCode (f.byte 0) = none) : RequestKind.setMode.verdict p f s = .refused .badParameter := by
  refine (Verdict.checked_append (State.supervisorChecks_open ho hp)).trans ?_
  have passed : modeRefused s.mode (f.byte 0) = false := by
    unfold modeRefused
    rw [hb]
    cases s.mode <;> rfl
  simp [passed, hb]

/-- A SET_MODE that passes its checks is carried out and answered with the modes before and after (R146). -/
theorem State.Offered.setMode_executed (h : s.Offered .setMode p f) (ho : s.OpenFor p f) (hp : p = s.supervisor)
    (hb : DeviceMode.ofCode (f.byte 0) = some m) (passed : modeRefused s.mode (f.byte 0) = false) :
    let t := (s.taking .setMode p f).setModeEvent m
    let u := t.place p f .ok [s.mode.code, t.mode.code] true
    exec (.setMode p) s = .next u ∧ s.Answered u p f .ok [s.mode.code, t.mode.code] := by
  intro t u
  have verdict : RequestKind.setMode.verdict p f (s.taking .setMode p f) = .executed .ok [s.mode.code, t.mode.code] t := by
    refine (Verdict.checked_append (State.supervisorChecks_open ho.taking (by simpa using hp))).trans ?_
    rw [State.taking_mode, Verdict.checked_cons, passed, Verdict.checked_cons, hb, Verdict.checked_nil]
    rfl
  obtain ⟨hexec, hans, -⟩ := h.executed verdict
  exact ⟨hexec, hans⟩

theorem modeRefused_present (m : DeviceMode) : modeRefused m m.code = false := by
  cases m <;> rfl

theorem modeRefused_service (m : DeviceMode) : modeRefused m 1 = false := by
  cases m <;> rfl

/-- R146: asking for the present mode changes nothing. -/
theorem State.setModeEvent_present (s : State) : s.setModeEvent s.mode = s := by
  unfold State.setModeEvent
  cases s.mode <;> rfl

theorem State.setModeEvent_service (hm : s.mode ≠ .service) : s.setModeEvent .service = s.enterService := by
  unfold State.setModeEvent
  cases h : s.mode with
  | service => exact absurd h hm
  | setup | quiesce => rfl

theorem State.setModeEvent_quiesce (hm : s.mode = .service) : s.setModeEvent .quiesce = s.enterQuiesce := by
  unfold State.setModeEvent
  rw [hm]
end

/-- Settles O36: SET_MODE is its event (`State.setModeEvent`) behind its checks, SERVICE is `State.EntersService`, and QUIESCE
withdraws the WAITING requests (`State.Quiesces`) and ends in the mode that the claims left allow. -/
theorem modeChanges : Obligations.ModeChanges := by
  refine fun p f s h ho hp => ⟨fun bad => ?_, fun hb => ?_, fun hb hm => ?_, fun hb hm law => ?_⟩
  · exact h.refused (ho.taking.setMode_unnamed (by simpa using hp) (DeviceMode.ofCode_of_lt bad)) nofun
  · obtain ⟨hexec, -⟩ := h.setMode_executed ho hp (hb ▸ s.mode.ofCode_code) (hb ▸ modeRefused_present s.mode)
    have present := (s.taking .setMode p f).setModeEvent_present
    rw [State.taking_mode] at present
    rwa [present, State.taking_mode] at hexec
  · obtain ⟨hexec, hans⟩ := h.setMode_executed ho hp (m := .service) (by rw [hb]; rfl) (hb ▸ modeRefused_service s.mode)
    rw [State.setModeEvent_service (by simpa using hm)] at hexec hans
    obtain ⟨mode, told, closed, drainReports, idle, same⟩ := (s.taking .setMode p f).enterService_enters
    simp only [State.taking_isOpen, State.taking_queue, State.taking_claims] at told closed idle
    generalize (s.taking .setMode p f).enterService = t at *
    rw [mode] at hexec hans
    refine ⟨_, hexec, mode, hans, told, closed, drainReports, fun none _ => ?_, same.placed ..⟩
    obtain ⟨⟨claims, slots, resources, lineReports⟩, queues⟩ := idle none
    obtain ⟨claims', slots', resources', lineReports'⟩ := s.taking_sameClaimTable .setMode p f
    exact ⟨⟨claims.trans claims', slots.trans slots', resources.trans resources', lineReports.trans lineReports'⟩, queues⟩
  · obtain ⟨hexec, hans⟩ := h.setMode_executed ho hp (m := .quiesce) (by rw [hb]; rfl) (by rw [hb, hm]; rfl)
    rw [State.setModeEvent_quiesce (by simpa using hm), hm] at hexec hans
    have law := (s.taking_sameTable .setMode p f).tableLaw law
    have drained := State.enterQuiesce_drained (s := s.taking .setMode p f)
    have draining := State.enterQuiesce_draining law
    obtain ⟨claims, withdrawn, slot, resources, lineReports, same⟩ := State.enterQuiesce_quiesces law
    simp only [State.taking_isOpen, State.taking_slot, State.taking_claims] at drained draining claims withdrawn slot
    generalize (s.taking .setMode p f).enterQuiesce = t at *
    exact ⟨_, hexec, claims, drained, fun left _ => draining left, hans, withdrawn, slot,
      resources.trans (s.taking_resources ..), lineReports.trans (s.taking_lineReports ..), same.placed ..⟩

end Sys2Proof.Machine
end

section
/-! ## The step and the frames on the line -/

namespace Sys2Proof.Machine

/-- Settles O1: the front command is the one that the step takes off the queue. -/
theorem stepRunsFrontCommand : Obligations.StepRunsFrontCommand := by
  intro c rest s h
  unfold step
  rw [h]

/-! ### The CRC -/

/-- The CRC takes its bytes one after the other (R164). -/
theorem crc_append_singleton (bytes : List Byte) (b : Byte) : crc (bytes ++ [b]) = crcByte (crc bytes) b := by
  rw [crc, crc, List.foldl_append]
  rfl

/-- A data bit that differs from the register's low bit turns the shifted register by the polynomial (R164). -/
theorem crcBit_eq (reg : Word16) (bit : Bool) :
    crcBit reg bit = if (reg.getLsbD 0 ^^ bit) = true then (reg >>> 1) ^^^ 0xA001 else reg >>> 1 := rfl

/-- The check value of the manual (R164). -/
theorem crc_check : crc [0x31, 0x32, 0x33, 0x34, 0x35, 0x36, 0x37, 0x38, 0x39] = 0x4B37 := by
  simp [crc, crcByte, crcBit]

/-- Settles O10: the CRC is `crcByte` byte by byte, and that is `crcBit_eq` bit by bit. -/
theorem framesCarryTheCrc : Obligations.FramesCarryTheCrc :=
  ⟨rfl, crc_append_singleton, fun _ => rfl, crc_check⟩

end Sys2Proof.Machine
end

section
/-! ## The receiver -/

namespace Sys2Proof.Machine

/-! ### A port written twice -/

@[simp] theorem State.setPort_setPort (s : State) (p : Port) (v w : PortInterface) :
    (s.setPort p v).setPort p w = s.setPort p w := by
  simp [State.setPort]

@[simp] theorem State.setPort_port_self (s : State) (p : Port) : s.setPort p (s.port p) = s := by
  simp [State.setPort, State.port]

/-! ### One character -/

section
variable {q : PortInterface} {now : Time} {c low : Byte} {n : Nat} {got : List Byte}

theorem PortInterface.receive_sync (h : q.rx = .hunt) (hc : c = 0x5A) :
    q.receive now c = { q with rx := .length, silence := some (now + q.rate.silenceUnits) } := by
  rw [PortInterface.receive, h]
  exact if_pos hc

theorem PortInterface.receive_noise (h : q.rx = .hunt) (hc : c ≠ 0x5A) : q.receive now c = q.hunt := by
  rw [PortInterface.receive, h]
  exact if_neg hc

theorem PortInterface.receive_length (h : q.rx = .length) (hc : 3 ≤ c.toNat ∧ c.toNat ≤ 100) :
    q.receive now c = { q with rx := .body c.toNat [], silence := some (now + q.rate.silenceUnits) } := by
  rw [PortInterface.receive, h]
  exact if_pos hc

theorem PortInterface.receive_badLength (h : q.rx = .length) (hc : ¬(3 ≤ c.toNat ∧ c.toNat ≤ 100)) :
    q.receive now c = q.hunt := by
  rw [PortInterface.receive, h]
  exact if_neg hc

theorem PortInterface.receive_body (h : q.rx = .body n got) (hn : got.length + 1 < n) :
    q.receive now c = { q with rx := .body n (got ++ [c]), silence := some (now + q.rate.silenceUnits) } := by
  have more : (got ++ [c]).length < n := by simpa using hn
  rw [PortInterface.receive, h]
  simp only [if_pos more]
  rfl

theorem PortInterface.receive_lastOfBody (h : q.rx = .body n got) (hn : n ≤ got.length + 1) :
    q.receive now c = { q with rx := .crc (got ++ [c]) none, silence := some (now + q.rate.silenceUnits) } := by
  have full : ¬(got ++ [c]).length < n := by simpa using hn
  rw [PortInterface.receive, h]
  simp only [if_neg full]
  rfl

theorem PortInterface.receive_crcLow (h : q.rx = .crc got none) :
    q.receive now c = { q with rx := .crc got (some c), silence := some (now + q.rate.silenceUnits) } := by
  rw [PortInterface.receive, h]
  rfl

theorem PortInterface.receive_crcHigh (h : q.rx = .crc got (some low)) :
    q.receive now c = (q.finishFrame got (Word16.ofBytes low c)).hunt := by
  rw [PortInterface.receive, h]

/-- The frame that a receiver makes of its counted bytes (R163, R182). -/
def PortInterface.frameOf (q : PortInterface) (got : List Byte) : Frame :=
  { kind := got.getD 0 0, tag := got.getD 1 0, inc := got.getD 2 0, body := got.drop 3, stamp := q.frameCount }

theorem PortInterface.receive_good (h : q.rx = .crc got (some low))
    (hc : crc (byteOf got.length :: got) = Word16.ofBytes low c) :
    q.receive now c = { q with
      rx := .hunt, silence := none, goodFrames := q.goodFrames ++ [q.frameOf got], frameCount := q.frameCount + 1 } := by
  rw [PortInterface.receive_crcHigh h, PortInterface.finishFrame, if_pos hc]
  rfl

theorem PortInterface.receive_damaged (h : q.rx = .crc got (some low))
    (hc : crc (byteOf got.length :: got) ≠ Word16.ofBytes low c) : q.receive now c = q.hunt := by
  rw [PortInterface.receive_crcHigh h, PortInterface.finishFrame, if_neg hc]
end

/-- What a port makes of a good character that completes now (R160, R162). -/
def PortInterface.hear (now : Time) (q : PortInterface) (c : Byte) : PortInterface :=
  ({ q with character := none } : PortInterface).receive now c

theorem exec_characterReceived {s : State} {p : Port} (c : Byte) (h : (s.port p).line = .mark) :
    exec (.characterReceived p c) s = .next (s.setPort p ((s.port p).hear s.now c)) := by
  show execCharacterReceived p c s = _
  rw [execCharacterReceived, h]
  rfl

/-- Settles O12: a character drives the receiver as the phase it finds says. -/
theorem charactersDriveTheReceiver : Obligations.CharactersDriveTheReceiver := by
  intro p c s hl q running answers
  have heard : ∀ {q'}, q.receive s.now c = q' → answers q' := fun e =>
    (exec_characterReceived c hl).trans (congrArg (fun v => Host.Outcome.next (s.setPort p v)) e)
  refine ⟨fun h hc => heard (PortInterface.receive_sync h hc), fun h hc => heard (PortInterface.receive_noise h hc),
    fun h h3 h100 => heard (PortInterface.receive_length h ⟨h3, h100⟩),
    fun h hc => heard (PortInterface.receive_badLength h ?_),
    fun n got h hn => heard (PortInterface.receive_body h hn),
    fun n got h hn => heard (PortInterface.receive_lastOfBody h hn),
    fun got h => heard (PortInterface.receive_crcLow h),
    fun got low h hc => heard (PortInterface.receive_good h hc),
    fun got low h hc => heard (PortInterface.receive_damaged h hc)⟩
  rintro ⟨h3, h100⟩
  omega

/-! ### Framing errors, silence and the passages of the line -/

section
variable {s : State} {p : Port} {since t : Time} {b : Bool}

theorem exec_framingError {r : Rate} (hl : (s.port p).line = .space since b) (hc : (s.port p).character = some r) :
    exec (.framingError p) s = .next (s.setPort p { (s.port p).hunt with character := none }) := by
  show execFramingError p s = _
  rw [execFramingError, hl, hc]
  rfl

theorem exec_silenceLimit (h : (s.port p).silence = some t) :
    exec (.silenceLimit p) s = .next ((s.passTo t).setPort p (s.port p).hunt) := by
  show execSilenceLimit p s = _
  unfold execSilenceLimit
  rw [h]

theorem exec_receiveLineChange (space startBit : Bool) :
    exec (.receiveLineChange p space startBit) s =
      .next (s.setPort p ((s.port p).lineChange s.now space startBit)) := rfl
end

section
variable {q : PortInterface} {now : Time}

theorem PortInterface.lineChange_startBit (hl : q.line = .mark) (hc : q.character = none) :
    q.lineChange now true true = { q with line := .space now false, character := some q.rate, silence := none } := by
  unfold PortInterface.lineChange
  rw [hl, hc]
  rfl

/-- A passage to space that is no start bit, or falls within a character, begins a space run only (R160, R177). -/
theorem PortInterface.lineChange_space {startBit : Bool} (hl : q.line = .mark)
    (h : startBit = false ∨ q.character ≠ none) :
    q.lineChange now true startBit = { q with line := .space now false } := by
  unfold PortInterface.lineChange
  rw [hl]
  refine if_neg ?_
  rw [Bool.and_eq_true, Option.isNone_iff_eq_none]
  rintro ⟨hs, hc⟩
  rcases h with h | h
  · exact absurd hs (by simp [h])
  · exact h hc

theorem PortInterface.lineChange_mark {since : Time} {b startBit : Bool} (hl : q.line = .space since b) :
    q.lineChange now false startBit = { q with line := .mark } := by
  unfold PortInterface.lineChange
  rw [hl]
end

/-- Settles O13, event by event. -/
theorem framingErrorsSilenceAndStartBits : Obligations.FramingErrorsSilenceAndStartBits := by
  refine fun p s => ⟨fun _ _ _ hl hc => exec_framingError hl hc, fun t h => exec_silenceLimit h, fun hl hc => ?_,
    fun _ hl h => ?_, fun _ _ _ hl => ?_⟩ <;> rw [exec_receiveLineChange]
  · rw [PortInterface.lineChange_startBit hl hc]
  · rw [PortInterface.lineChange_space hl h]
  · rw [PortInterface.lineChange_mark hl]

/-! ### A whole frame -/

section
variable {q : PortInterface} {now : Time}

/-- What a port makes of characters that arrive one after the other. -/
def PortInterface.hears (now : Time) (q : PortInterface) (cs : List Byte) : PortInterface :=
  cs.foldl (PortInterface.hear now) q

theorem PortInterface.hears_append (cs ds : List Byte) : q.hears now (cs ++ ds) = (q.hears now cs).hears now ds :=
  List.foldl_append

theorem PortInterface.hear_line (q : PortInterface) (c : Byte) : (q.hear now c).line = q.line := by
  unfold PortInterface.hear PortInterface.receive
  split
  · split <;> rfl
  · split <;> rfl
  · dsimp only
    split <;> rfl
  · rfl
  · unfold PortInterface.finishFrame
    split <;> rfl

/-- Characters sent to a port whose line is at mark are heard by it, and nothing else happens. -/
theorem runCommands_characters {p : Port} (cs : List Byte) {s : State} (hl : (s.port p).line = .mark) :
    runCommands (cs.map (Instr.characterReceived p)) s = .next (s.setPort p ((s.port p).hears s.now cs)) := by
  induction cs generalizing s with
  | nil => exact congrArg Host.Outcome.next (s.setPort_port_self p).symm
  | cons c cs ih =>
    have heard : (s.setPort p ((s.port p).hear s.now c)).port p = (s.port p).hear s.now c := by simp
    rw [List.map_cons, runCommands, exec_characterReceived c hl]
    refine (ih (by rw [heard, PortInterface.hear_line, hl])).trans ?_
    rw [heard, State.setPort_setPort]
    rfl

/-- A receiver in BODY gathers the bytes that are still counted, and is then in CRC (R163). -/
theorem PortInterface.hears_body {n : Nat} (b : Byte) (bs : List Byte) {q : PortInterface} {got : List Byte}
    (hq : q.rx = .body n got) (hn : n = got.length + (b :: bs).length) :
    q.hears now (b :: bs) = { q with
      rx := .crc (got ++ b :: bs) none, silence := some (now + q.rate.silenceUnits), character := none } := by
  induction bs generalizing q got b with
  | nil => exact PortInterface.receive_lastOfBody hq (Nat.le_of_eq hn)
  | cons c bs ih =>
    have more : got.length + 1 < n := by simp at hn; omega
    have gathered : q.hear now b = { q with
        rx := .body n (got ++ [b]), silence := some (now + q.rate.silenceUnits), character := none } :=
      PortInterface.receive_body (q := { q with character := none }) hq more
    show (q.hear now b).hears now (c :: bs) = _
    rw [gathered, ih c rfl (by simp at hn ⊢; omega), List.append_assoc]
    rfl

theorem Word16.ofBytes_low_high (w : Word16) : Word16.ofBytes (Word16.low w) (Word16.high w) = w := by
  apply BitVec.eq_of_toNat_eq
  have := w.isLt
  simp only [Word16.toNat_ofBytes, Word16.low, Word16.high, BitVec.toNat_setWidth, BitVec.toNat_ushiftRight,
    Nat.shiftRight_eq_div_pow]
  omega

/-- A receiver in CRC that hears the CRC of its counted bytes has found a good frame (R163, R164). -/
theorem PortInterface.hears_crc {got : List Byte} (hq : q.rx = .crc got none) :
    q.hears now (wordBytes (crc (byteOf got.length :: got))) = { q with
      rx := .hunt, silence := none, character := none, goodFrames := q.goodFrames ++ [q.frameOf got],
      frameCount := q.frameCount + 1 } := by
  have heardLow : ∀ c, q.hear now c = { q with
      rx := .crc got (some c), silence := some (now + q.rate.silenceUnits), character := none } := fun _ =>
    PortInterface.receive_crcLow (q := { q with character := none }) hq
  show (q.hear now _).hear now _ = _
  rw [heardLow]
  exact PortInterface.receive_good (got := got) rfl (Word16.ofBytes_low_high _).symm

/-- A receiver in HUNT that hears a frame of an allowed length has it among its good frames (R162 to R164, R182). -/
theorem PortInterface.hears_frame (b : Byte) (bs : List Byte) (hq : q.rx = .hunt) (h3 : 3 ≤ (b :: bs).length)
    (h100 : (b :: bs).length ≤ 100) :
    q.hears now (lineFrame (b :: bs)) = { q with
      rx := .hunt, silence := none, character := none, goodFrames := q.goodFrames ++ [q.frameOf (b :: bs)],
      frameCount := q.frameCount + 1 } := by
  have counted : (byteOf (b :: bs).length).toNat = (b :: bs).length :=
    Nat.mod_eq_of_lt (Nat.lt_of_le_of_lt h100 (by decide))
  have synced : q.hear now sync = { q with rx := .length, silence := some (now + q.rate.silenceUnits), character := none } :=
    PortInterface.receive_sync (q := { q with character := none }) hq rfl
  have measured : (q.hear now sync).hear now (byteOf (b :: bs).length) =
      { q with rx := .body (b :: bs).length [], silence := some (now + q.rate.silenceUnits), character := none } := by
    rw [synced, PortInterface.hear, PortInterface.receive_length rfl (by rw [counted]; exact ⟨h3, h100⟩), counted]
  have gathered : ((q.hear now sync).hear now (byteOf (b :: bs).length)).hears now (b :: bs) =
      { q with rx := .crc (b :: bs) none, silence := some (now + q.rate.silenceUnits), character := none } := by
    rw [measured]
    exact PortInterface.hears_body (got := []) b bs rfl (Nat.zero_add _).symm
  show ((q.hear now sync).hear now _).hears now ((b :: bs) ++ wordBytes _) = _
  rw [PortInterface.hears_append, gathered]
  exact PortInterface.hears_crc rfl
end

/-- Settles O14: the characters are heard one after the other (`runCommands_characters`), and a frame of at most 97 body
bytes is one that a receiver in HUNT hears whole (`PortInterface.hears_frame`). -/
theorem requestFramesAreReceived : Obligations.RequestFramesAreReceived := by
  intro p kind tag inc body s hb hl hq
  rw [runCommands_characters _ hl, requestFrame,
    PortInterface.hears_frame kind (tag :: inc :: body) hq (by simp) (by simp; omega)]
  rfl

end Sys2Proof.Machine
end

section
/-! ## The queue of commands and the time

No command writes the queue of commands (log entry 5). That no command turns time back is read off `exec_event`: a command
may let time pass before it keeps the laws, and every other event leaves the time as it is. -/

namespace Sys2Proof.Machine

section
variable {s t : State}

theorem State.Event.now_le (a : s.Event t) : s.now ≤ t.now := by
  cases a with
  | keeps T a => exact a.lines.now ▸ Nat.le_max_left s.now T
  | redefines x v a => exact Nat.le_of_eq a.now.symm
  | resets a => exact Nat.le_of_eq a.now.symm

theorem State.TableEvent.pending (a : s.TableEvent t) : t.pending = s.pending := a.outside.pending

theorem State.LineOrder.pending {x : ResNo} (a : State.LineOrder x s t) : t.pending = s.pending := a.outside.pending
end

section
variable (s : State) (p : Port) (x : ResNo)

/-! ### Requests -/

theorem State.endOfServe_pending (o : Owner) : (s.endOfServe o).pending = s.pending := (s.endOfServe_sameInputs o).pending

/-- Of a request the taking, the verdict, the end of the event and the reply leave the queue of commands alone. -/
theorem RequestKind.serve_pending (k : RequestKind) : (s.serve k p (k.verdict p)).pending = s.pending := by
  by_cases h : ∃ f, s.Offered k p f
  · obtain ⟨f, hf⟩ := h
    rw [State.serve_offered hf]
    have follows := k.verdict_follows p f (s.taking k p f)
    cases hv : k.verdict p f (s.taking k p f) with
    | refused st => exact (State.endOfServe_pending _ _).trans (s.taking_pending k p f)
    | executed st body t =>
      rw [hv] at follows
      exact (t.endOfServe_pending _).trans (follows.2.inputs.pending.trans (s.taking_pending k p f))
  · rw [State.serve_not_offered fun f hf => h ⟨f, hf⟩]

/-! ### Sessions and ports -/

theorem State.severPort_pending (reason : SeverReason) : (s.severPort p reason).pending = s.pending :=
  (s.severPort_requested (p := p) p reason).inputs.pending

theorem State.takeFrame_pending (f : Frame) : (s.takeFrame p f).pending = s.pending := by
  unfold State.takeFrame
  split
  · rfl
  · split <;> rfl

theorem frameReport_pending : ∃ t, execFrameReport p s = .next t ∧ t.pending = s.pending := by
  refine ⟨_, rfl, ?_⟩
  split
  · exact (State.seeFrame_seen _ p _).inputs.pending
  · rfl

theorem takeRequest_pending : ∃ t, execTakeRequest p s = .next t ∧ t.pending = s.pending := by
  refine ⟨_, rfl, ?_⟩
  split
  · split
    · exact State.takeFrame_pending _ p _
    · rfl
  · rfl

theorem breakDetected_pending : ∃ t, execBreakDetected p s = .next t ∧ t.pending = s.pending := by
  refine ⟨_, rfl, ?_⟩
  split
  · exact State.severPort_pending _ p _
  · rfl

theorem windowExpiry_pending : ∃ t, execWindowExpiry p s = .next t ∧ t.pending = s.pending := by
  refine ⟨_, rfl, ?_⟩
  split
  · unfold State.missFirst
    split
    · exact State.severPort_pending _ p _
    · rfl
  · split
    · unfold State.windowShown
      split <;> rfl
    · unfold State.windowMissed
      split
      · exact State.severPort_pending _ p _
      · rfl
  · rfl

theorem severInputFiltered_pending : ∃ t, execSeverInputFiltered p s = .next t ∧ t.pending = s.pending := by
  refine ⟨_, rfl, ?_⟩
  split
  · rfl
  · dsimp only
    split
    · exact State.severPort_pending _ p _
    · rfl

/-! ### The Claim Table's internal events -/

theorem liveAgain_pending : ∃ t, execLiveAgain p s = .next t ∧ t.pending = s.pending := by
  refine ⟨_, rfl, ?_⟩
  split
  · rfl
  · exact (State.endOfEvent_pending _).trans (State.evaluate_tableEvent _ _).pending

theorem State.acknowledge_pending (a : AckEvent) : (s.acknowledge a).pending = s.pending := by
  unfold State.acknowledge
  split
  · split <;> rfl
  · rfl

theorem outcomeAcknowledged_pending (h : Handle) :
    ∃ t, execOutcomeAcknowledged p h s = .next t ∧ t.pending = s.pending := by
  refine ⟨_, rfl, ?_⟩
  split
  · rfl
  · exact (State.endOfEvent_pending _).trans (State.acknowledge_pending _ _)

theorem noClaimsRemain_pending : ∃ t, execNoClaimsRemain s = .next t ∧ t.pending = s.pending := by
  refine ⟨_, rfl, ?_⟩
  split
  · rfl
  · dsimp only
    split
    · exact (State.drainToSetup_sameButMode _).inputs.pending
    · rfl

theorem waitExpiry_pending (h : Handle) : ∃ t, execWaitExpiry p h s = .next t ∧ t.pending = s.pending := by
  refine ⟨_, rfl, ?_⟩
  split
  · exact (State.endOfEvent_pending _).trans
      ((State.endRequest_tableEvent _ p h _ _).trans (State.evaluate_tableEvent _ _)).pending
  · rfl

theorem holdExpiry_pending : ∃ t, execHoldExpiry p x s = .next t ∧ t.pending = s.pending := by
  refine ⟨_, rfl, ?_⟩
  split
  · refine (State.endOfEvent_pending _).trans ?_
    split
    · rfl
    · exact ((State.beginYield_tableEvent _ x _).trans (State.evaluate_tableEvent _ _)).pending
  · rfl

theorem graceExpiry_pending : ∃ t, execGraceExpiry p x s = .next t ∧ t.pending = s.pending := by
  refine ⟨_, rfl, ?_⟩
  split
  · exact (State.endOfEvent_pending _).trans
      ((State.revoke_tableEvent _ x _ _).trans (State.evaluate_tableEvent _ _)).pending
  · rfl

/-! ### The Line Unit -/

theorem phaseTimerExpiry_pending : ∃ t, execPhaseTimerExpiry x s = .next t ∧ t.pending = s.pending := by
  refine ⟨_, rfl, ?_⟩
  split
  · next T k _ => exact ((s.passTo T).phaseReport_lineOrder x .quiet k).pending
  · rfl

theorem confirmFilterChange_pending (c : ConfNo) : ∃ t, execConfirmFilterChange c s = .next t ∧ t.pending = s.pending := by
  refine ⟨_, rfl, ?_⟩
  split
  · rfl
  · next T _ =>
    exact (State.meetLevels_rest c (List.finRange 64)
      ((s.passTo T).setConfirm c s.confirmInputs[c].settle)).1.outside.pending

/-- The taking of a Line Unit report leaves the queue of commands to its effect (R77). -/
theorem State.takeReport_pending (k : LineReportKind) {act : State → State}
    (ha : ∀ u : State, (act u).pending = u.pending) : (s.takeReport x k act).pending = s.pending := by
  unfold State.takeReport
  split
  · rfl
  · refine (State.endOfEvent_pending _).trans ?_
    split
    · exact ha _
    · rfl

theorem State.onGuardElapsed_pending : (State.onGuardElapsed x s).pending = s.pending := by
  unfold State.onGuardElapsed
  split
  · exact (s.setLineState_lineOrder x _).pending
  · next k _ _ => exact (State.evaluate_tableEvent _ _).pending.trans (s.engageOrVerify_lineOrder x k).pending
  · rfl

theorem State.onReleaseSeen_pending : (State.onReleaseSeen x s).pending = s.pending := by
  unfold State.onReleaseSeen
  split
  · next k _ _ => exact (State.evaluate_tableEvent _ _).pending.trans (s.beginEngage_lineOrder x k).pending
  · rfl
end

/-! ### Every command -/

theorem exec_pending (i : Instr) (s : State) : ∃ t, exec i s = .next t ∧ t.pending = s.pending := by
  have request : ∀ (k : RequestKind) p, ∃ t, exec (k.command p) s = .next t ∧ t.pending = s.pending := fun k p =>
    ⟨_, exec_command k p s, k.serve_pending s p⟩
  cases i with
  | join p => exact request .join p
  | leave p => exact request .leave p
  | touch p => exact request .touch p
  | setRate p => exact request .setRate p
  | claim p => exact request .claim p
  | cancel p => exact request .cancel p
  | release p => exact request .release p
  | fetch p => exact request .fetch p
  | sessionInfo p => exact request .sessionInfo p
  | resourceInfo p => exact request .resourceInfo p
  | holdings p => exact request .holdings p
  | partInfo p => exact request .partInfo p
  | define p => exact request .define p
  | undefine p => exact request .undefine p
  | setLimits p => exact request .setLimits p
  | setMode p => exact request .setMode p
  | setSupervisor p => exact request .setSupervisor p
  | forceRelease p => exact request .forceRelease p
  | disable p => exact request .disable p
  | clearFault p => exact request .clearFault p
  | sever p => exact request .sever p
  | restart p => exact request .restart p
  | frameComplete p | silenceLimit p | replySent p | framingError p => exact ⟨_, rfl, by split <;> rfl⟩
  | characterReceived p c => exact ⟨_, rfl, by split <;> rfl⟩
  | severInputChange _ _ | confirmInputChange _ _ | receiveLineChange _ _ _ | pinReset => exact ⟨_, rfl, rfl⟩
  | takeRequest p => exact takeRequest_pending s p
  | breakDetected p => exact breakDetected_pending s p
  | frameReport p => exact frameReport_pending s p
  | windowExpiry p => exact windowExpiry_pending s p
  | severInputFiltered p => exact severInputFiltered_pending s p
  | liveAgain p => exact liveAgain_pending s p
  | outcomeAcknowledged p h => exact outcomeAcknowledged_pending s p h
  | noClaimsRemain => exact noClaimsRemain_pending s
  | waitExpiry p h => exact waitExpiry_pending s p h
  | holdExpiry p x => exact holdExpiry_pending s p x
  | graceExpiry p x => exact graceExpiry_pending s p x
  | phaseTimerExpiry x => exact phaseTimerExpiry_pending s x
  | confirmFilterChange c => exact confirmFilterChange_pending s c
  | guardElapsed x => exact ⟨_, rfl, s.takeReport_pending x _ fun u => u.onGuardElapsed_pending x⟩
  | releaseSeen x => exact ⟨_, rfl, s.takeReport_pending x _ fun u => u.onReleaseSeen_pending x⟩
  | verifyTimeout x => exact ⟨_, rfl, s.takeReport_pending x _ fun u => (u.onVerifyTimeout_tableEvent x).pending⟩
  | engagedSeen x => exact ⟨_, rfl, s.takeReport_pending x _ fun u => (u.onEngagedSeen_tableEvent x).pending⟩
  | engageTimeout x => exact ⟨_, rfl, s.takeReport_pending x _ fun u => (u.onEngageTimeout_tableEvent x).pending⟩
  | confirmationLost x => exact ⟨_, rfl, s.takeReport_pending x _ fun u => (u.onConfirmationLost_tableEvent x).pending⟩

/-- Settles O3: every command is an event, which never turns time back (`State.Event.now_le`), and none writes the queue of
commands (`exec_pending`). -/
theorem commandsKeepQueueAndTime : Obligations.CommandsKeepQueueAndTime := by
  intro i s
  obtain ⟨t, ht, event⟩ := exec_event i s
  obtain ⟨u, hu, pending⟩ := exec_pending i s
  cases ht.symm.trans hu
  exact ⟨t, ht, pending, event.now_le⟩

end Sys2Proof.Machine
end

section
/-! ## The inbound queue -/

namespace Sys2Proof.Machine

/-! ### The kind and length checks -/

theorem RequestKind.ofCode_code (k : RequestKind) : RequestKind.ofCode k.code = some k := by cases k <;> rfl

theorem RequestKind.ofCode_none {b : Byte} (h : ∀ k : RequestKind, b ≠ k.code) : RequestKind.ofCode b = none :=
  List.find?_eq_none.mpr fun k _ e => h k (eq_of_beq e).symm

section
variable {f : Frame} {k : RequestKind}

theorem Frame.takeRefusal_unknown (h : ∀ k : RequestKind, f.kind ≠ k.code) : f.takeRefusal = some .unknownKind := by
  rw [Frame.takeRefusal, RequestKind.ofCode_none h]

theorem Frame.takeRefusal_known (h : f.kind = k.code) :
    f.takeRefusal = if f.length ∈ k.lengths then none else some .badLength := by
  rw [Frame.takeRefusal, h, RequestKind.ofCode_code]
  exact if_congr List.contains_iff_mem rfl rfl

theorem CacheEntry.hit_iff {e : CacheEntry} : e.hit f = true ↔ e.kind = f.kind ∧ e.tag = f.tag ∧ e.inc = f.inc := by
  simp [CacheEntry.hit, and_assoc]
end

/-! ### Completing a frame -/

section
variable {s : State} {p : Port} {f : Frame} {rest : List Frame}

theorem exec_frameComplete (h : (s.port p).goodFrames = f :: rest) :
    exec (.frameComplete p) s = .next (s.setPort p ((s.port p).completeFrame f rest)) := by
  show execFrameComplete p s = _
  rw [execFrameComplete, h]

theorem PortInterface.completeFrame_queued {q : PortInterface} (h : q.inbound.length < 2) :
    q.completeFrame f rest = { q with
      goodFrames := rest, reports := q.reports ++ [{ stamp := f.stamp, inc := f.inc }], inbound := q.inbound ++ [f] } := by
  have room : q.inbound.length < Config.inboundPlaces := h
  rw [PortInterface.completeFrame, if_pos room]

theorem PortInterface.completeFrame_discarded {q : PortInterface} (h : 2 ≤ q.inbound.length) :
    q.completeFrame f rest = { q with
      goodFrames := rest, reports := q.reports ++ [{ stamp := f.stamp, inc := f.inc }] } := by
  have full : ¬q.inbound.length < Config.inboundPlaces := Nat.not_lt.mpr h
  rw [PortInterface.completeFrame, if_neg full]

/-! ### Taking a request -/

theorem PortInterface.takeReady_iff {q : PortInterface} :
    q.takeReady = true ↔ q.checkStage = none ∧ q.replies.length < 2 ∧ q.pendingRate = none := by
  simp [PortInterface.takeReady, Config.replyPlaces, and_assoc]

theorem exec_takeRequest (h : (s.port p).inbound = f :: rest) :
    exec (.takeRequest p) s = .next (if (s.port p).takeReady = true
      then (s.setPort p { s.port p with inbound := rest }).takeFrame p f else s) := by
  show execTakeRequest p s = _
  rw [execTakeRequest, h]

/-- A request that the reply cache knows is answered with the reply it keeps (R174). -/
theorem State.takeFrame_cached {e : CacheEntry} (hc : (s.port p).cache = some e) (hit : e.hit f = true) :
    s.takeFrame p f = s.setPort p ((s.port p).addReply s.now { bytes := e.reply, appliesRate := false }) := by
  have found : ((s.port p).cache.filter fun e => e.hit f) = some e := by rw [hc]; exact Option.filter_some_pos hit
  rw [State.takeFrame, found]

/-- A request that the reply cache does not know is taken as its kind and its length say (R169, R174). -/
theorem State.takeFrame_refused {st : Status} (hc : ∀ e, (s.port p).cache = some e → ¬e.hit f = true)
    (hr : f.takeRefusal = some st) : s.takeFrame p f = s.refuse p f st := by
  have missed : ((s.port p).cache.filter fun e => e.hit f) = none := Option.filter_eq_none_iff.mpr hc
  unfold State.takeFrame
  rw [missed, hr]

theorem State.takeFrame_passed (hc : ∀ e, (s.port p).cache = some e → ¬e.hit f = true) (hr : f.takeRefusal = none) :
    s.takeFrame p f = s.setPort p { s.port p with checkStage := some f } := by
  have missed : ((s.port p).cache.filter fun e => e.hit f) = none := Option.filter_eq_none_iff.mpr hc
  unfold State.takeFrame
  rw [missed, hr]

end

/-- Settles O15: a take condition that fails leaves the request in its queue, and otherwise it leaves the queue for the outcome
of `State.takeFrame`. -/
theorem inboundQueueFillsAndIsTaken : Obligations.InboundQueueFillsAndIsTaken := by
  refine ⟨fun p f rest s h => ⟨fun room => ?_, fun full => ?_⟩,
    fun p f rest s h => ⟨fun waits => ?_, fun stage places rate => ?_⟩⟩
  · rw [exec_frameComplete h, PortInterface.completeFrame_queued room]
  · rw [exec_frameComplete h, PortInterface.completeFrame_discarded full]
  · rw [exec_takeRequest h, if_neg]
    rw [PortInterface.takeReady_iff]
    rintro ⟨stage, places, rate⟩
    rcases waits with w | w | w
    · exact w stage
    · exact absurd places (Nat.not_lt.mpr w)
    · exact w rate
  · intro q
    have taken : (s.setPort p q).port p = q := by simp
    rw [exec_takeRequest h, if_pos (PortInterface.takeReady_iff.mpr ⟨stage, places, rate⟩)]
    refine ⟨fun e he kind tag inc => ?_, fun missed => ?_⟩
    · rw [State.takeFrame_cached (by rw [taken]; exact he) (CacheEntry.hit_iff.mpr ⟨kind, tag, inc⟩), taken,
        State.setPort_setPort]
      rfl
    · have fresh : ∀ e, ((s.setPort p q).port p).cache = some e → ¬e.hit f = true := fun e he hit =>
        missed e (by rw [taken] at he; exact he) (CacheEntry.hit_iff.mp hit)
      refine ⟨fun unknown => congrArg _ (State.takeFrame_refused fresh (Frame.takeRefusal_unknown unknown)),
        fun k hk => ⟨fun bad => ?_, fun good => ?_⟩⟩
      · exact congrArg _ (State.takeFrame_refused fresh ((Frame.takeRefusal_known hk).trans (if_neg bad)))
      · rw [State.takeFrame_passed fresh ((Frame.takeRefusal_known hk).trans (if_pos good)), taken, State.setPort_setPort]

end Sys2Proof.Machine
end

section
/-! ## SET_RATE and the end of a reply -/

namespace Sys2Proof.Machine

/-! ### SET_RATE -/

theorem Rate.ofCode_code (r : Rate) : Rate.ofCode r.code = some r := by cases r <;> rfl

theorem Rate.ofCode_of_lt {b : Byte} (h : 3 < b.toNat) : Rate.ofCode b = none := by
  rw [Rate.ofCode, if_neg (by bv_omega), if_neg (by bv_omega), if_neg (by bv_omega), if_neg (by bv_omega)]

section
variable {s : State} {p : Port} {f : Frame} {v : Rate}

/-- The parameter check of a SET_RATE, behind its session check (R175). -/
theorem State.OpenFor.setRate_verdict (ho : s.OpenFor p f) : RequestKind.setRate.verdict p f s =
    if (Rate.ofCode (f.byte 0)).isNone = true then .refused .badParameter
    else .executed .ok [f.byte 0] (s.setPort p { s.port p with pendingRate := Rate.ofCode (f.byte 0) }) := by
  refine (Verdict.checked_append (State.sessionChecks_open ho)).trans ?_
  rw [Verdict.checked_cons, Verdict.checked_nil]

/-- The state in which SET_RATE has set the pending rate (R175). -/
def State.ratePending (s : State) (p : Port) (v : Rate) : State := s.setPort p { s.port p with pendingRate := some v }

/-- A SET_RATE with a rate's code is executed and answered with it (R175). -/
theorem State.Offered.setRate_executed (h : s.Offered .setRate p f) (ho : s.OpenFor p f) (hr : f.byte 0 = v.code) :
    let u := ((s.taking .setRate p f).ratePending p v).place p f .ok [v.code] true
    exec (.setRate p) s = .next u ∧ s.Answered u p f .ok [v.code] := by
  have verdict : RequestKind.setRate.verdict p f (s.taking .setRate p f) =
      .executed .ok [v.code] ((s.taking .setRate p f).ratePending p v) := by
    rw [ho.taking.setRate_verdict, hr, Rate.ofCode_code]
    rfl
  obtain ⟨hexec, hans, -⟩ := h.executed verdict
  exact ⟨hexec, hans⟩

theorem State.ratePending_port (s : State) (p : Port) (v : Rate) :
    (s.ratePending p v).port p = { s.port p with pendingRate := some v } :=
  (s.port_setPort p p _).trans (if_pos rfl)

/-- A SET_RATE touches nothing but its own port, and the session whose reports its taking takes. -/
theorem State.ratePending_leaves (s : State) (p : Port) (f : Frame) (v : Rate) (body : List Byte) :
    let u := ((s.taking .setRate p f).ratePending p v).place p f .ok body true
    s.SameClaimTable u ∧ s.SameSupervision u ∧ s.SameInputs u ∧ s.SameOtherPorts u p ∧ s.SameEvents u
      ∧ u.queue p = s.queue p := by
  obtain ⟨claims, slots, resources, lineReports⟩ := s.taking_sameClaimTable .setRate p f
  obtain ⟨mode, supervisor, threshold, recovery, filterTime⟩ := s.taking_sameSupervision .setRate p f
  obtain ⟨confirm, sever, now, pending⟩ := s.taking_sameInputs .setRate p f
  have acks := s.taking_ackEvents .setRate p f
  have live := s.taking_liveReports .setRate p f
  have queues := s.taking_queue .setRate p f
  have others : s.SameOtherPorts (s.taking .setRate p f) p := fun q hq =>
    ⟨s.taking_session_other .setRate p f q hq, queues q, State.taking_port_other hq⟩
  generalize s.taking .setRate p f = t at *
  refine ⟨⟨claims, slots, resources, lineReports⟩, ⟨mode, supervisor, threshold, recovery, filterTime⟩,
    ⟨confirm, sever, now, pending⟩, fun q hq => ?_, ⟨acks, live⟩, queues p⟩
  obtain ⟨session, queue, port⟩ := others q hq
  exact ⟨session, queue, (State.place_port_other hq).trans
    (((t.port_setPort p q _).trans (if_neg (Ne.symm hq))).trans port)⟩

/-- The reply of an executed SET_RATE is the last of its port and applies the pending rate when it has gone (R176). -/
theorem State.place_appliesRate (s : State) (p : Port) (st : Status) (body : List Byte)
    (hf : f.kind = RequestKind.setRate.code) :
    ∀ y ∈ ((s.place p f st body true).port p).replies.getLast?, y.appliesRate = true := by
  intro y hy
  rw [State.place_port, if_pos rfl] at hy
  simp only [PortInterface.addReply_replies, List.getLast?_concat, Option.mem_def, Option.some.injEq] at hy
  rw [← hy, hf]
  rfl
end

/-! ### The end of a reply -/

section
variable {s : State} {p : Port} {q : PortInterface} {r : Reply} {rest : List Reply} {m : Moment}

theorem exec_replySent (h : (s.port p).replies = r :: rest) : exec (.replySent p) s =
    .next ((s.passTo (unitOf ((s.port p).leavesAt s.now))).setPort p
      ((s.port p).replyGone ((s.port p).leavesAt s.now) r rest)) := by
  show execReplySent p s = _
  rw [execReplySent, h]

theorem PortInterface.replyGone_keepsRate (hr : r.appliesRate = false) : q.replyGone m r rest =
    { q with replies := rest, begins := if rest = [] then none else some m } := by
  simp only [PortInterface.replyGone, hr, List.isEmpty_iff]
  rfl

/-- The reply of a SET_RATE applies the pending rate (R176). -/
theorem PortInterface.replyGone_appliesRate {v : Rate} (hr : r.appliesRate = true) (hv : q.pendingRate = some v) :
    q.replyGone m r rest =
      { q with replies := rest, begins := if rest = [] then none else some m, rate := v, pendingRate := none } := by
  simp only [PortInterface.replyGone, hr, hv, List.isEmpty_iff]
  rfl

theorem PortInterface.replyGone_noPendingRate (hr : r.appliesRate = true) (hv : q.pendingRate = none) :
    q.replyGone m r rest = { q with replies := rest, begins := if rest = [] then none else some m } := by
  simp only [PortInterface.replyGone, hr, hv, List.isEmpty_iff]
  rfl

/-- A reply leaves at the end of its last stop bit, or when the event is taken, if later (R172, log entry 13). -/
theorem PortInterface.leavesAt_eq {b : Moment} (now : Time) (hb : q.begins = some b) (hr : q.replies = r :: rest) :
    q.leavesAt now =
      if now ≤ unitOf (b + r.bytes.length * q.rate.charMoments) then b + r.bytes.length * q.rate.charMoments
      else momentOf now := by
  rw [PortInterface.leavesAt, PortInterface.replyEnds, hb, hr]
end

/-! ### The characters of a reply on TXDn -/

section
variable {q : PortInterface} {b m : Moment} {r : Reply} {rest : List Reply}

theorem PortInterface.onLine_of_noLastChar (hl : q.lastChar = none) : q.onLine m = q.replyChar m := by
  rw [PortInterface.onLine, hl]
  rfl

/-- Before its first start bit and after its last stop bit no character of a reply is on the line (R172). -/
theorem PortInterface.replyChar_outside (hb : q.begins = some b) (hr : q.replies = r :: rest)
    (h : m < b ∨ b + r.bytes.length * q.rate.charMoments ≤ m) : q.replyChar m = none := by
  simp only [PortInterface.replyChar, hb, hr]
  rcases h with h | h
  · exact if_neg (Nat.not_le.mpr h)
  · have begun : b ≤ m := Nat.le_trans (Nat.le_add_right _ _) h
    have pos : 0 < q.rate.charMoments := Nat.mul_pos (by decide) q.rate.bitMoments_pos
    have past : r.bytes.length ≤ (m - b) / q.rate.charMoments :=
      (Nat.le_div_iff_mul_le pos).mpr (Nat.le_sub_of_add_le' h)
    rw [if_pos begun, List.getElem?_eq_none past]
    rfl

/-- The bits of a character of the oldest reply (R160, R172). -/
theorem PortInterface.replyChar_bit {i n : Nat} {v : Byte} (hb : q.begins = some b) (hr : q.replies = r :: rest)
    (hv : r.bytes[i]? = some v) (hn : n < 10) (h1 : b + (10 * i + n) * q.rate.bitMoments ≤ m)
    (h2 : m < b + (10 * i + n + 1) * q.rate.bitMoments) : ∃ c, q.replyChar m = some c ∧
      c.isMark m = if n = 0 then false else if n = 9 then true else v.getLsbD (n - 1) := by
  have split : ∀ k, b + (10 * i + k) * q.rate.bitMoments = b + i * q.rate.charMoments + k * q.rate.bitMoments := fun k => by
    rw [Rate.charMoments]
    ring
  have within : (n + 1) * q.rate.bitMoments ≤ q.rate.charMoments := Nat.mul_le_mul_right _ hn
  rw [split] at h1
  rw [Nat.add_assoc (10 * i), split] at h2
  have char := q.replyChar_eq hb hr (Nat.le_trans (Nat.le_add_right _ _) h1) (Nat.lt_of_lt_of_le h2 (by
    rw [Nat.add_mul i, Nat.one_mul, ← Nat.add_assoc]
    exact Nat.add_le_add_left within _))
  rw [hv] at char
  refine ⟨_, char, (TxChar.isMark_bit _ h1 h2).trans ?_⟩
  cases n with
  | zero => rfl
  | succ k =>
    by_cases hk : k < 8
    · simp [hk, Nat.ne_of_lt hk]
    · have : k = 8 := by omega
      simp [this]
end

/-- TXDn is the level of the line at the present moment, of which 1152 pass in 10 µs (R161, log entry 13). -/
theorem State.txd_eq (s : State) (p : Port) :
    s.txd p = if (s.port p).txMark (s.now * 1152) = true then .high else .low := by
  rw [State.txd, momentOf, Config.momentsPerUnit]

/-- Settles O16: SET_RATE sets the pending rate (`State.ratePending`), which `PortInterface.replyGone` applies, and each bit of
a reply has its place on the line (`PortInterface.replyChar_bit`). -/
theorem ratesChangeAfterTheReply : Obligations.RatesChangeAfterTheReply := by
  refine ⟨fun p f s h ho => ⟨fun r hr => ?_, fun bad => ?_⟩, fun p r rest s h => ?_,
    fun q b r rest hr hb hl => ⟨fun m hm => ?_, fun i v hv n hn m h1 h2 => ?_⟩,
    fun q m hr hl => q.txMark_of_idle m hr (by simp [hl]), fun r => by cases r <;> rfl, fun s p => s.txd_eq p⟩
  · obtain ⟨hexec, hans⟩ := h.setRate_executed ho hr
    obtain ⟨table, supervision, inputs, others, events, queue⟩ := s.ratePending_leaves p f r [r.code]
    refine ⟨_, hexec, hans, ?_, ?_, State.place_appliesRate _ p .ok _ h.kind, table, supervision, inputs, others, events,
      queue⟩ <;> rw [State.place_port, if_pos rfl, State.ratePending_port, State.taking_port, if_pos rfl] <;> rfl
  · have verdict := (ho.taking (k := .setRate)).setRate_verdict
    rw [Rate.ofCode_of_lt bad] at verdict
    exact h.refused verdict nofun
  · refine ⟨fun b hb => PortInterface.leavesAt_eq s.now hb h, fun hr => ?_, fun hr v hv => ?_, fun hr hv => ?_⟩ <;>
      rw [exec_replySent h]
    · rw [PortInterface.replyGone_keepsRate hr]
      rfl
    · rw [PortInterface.replyGone_appliesRate hr hv]
      rfl
    · rw [PortInterface.replyGone_noPendingRate hr hv]
      rfl
  · rw [PortInterface.txMark, PortInterface.onLine_of_noLastChar hl, PortInterface.replyChar_outside hb hr hm]
  · obtain ⟨c, hc, hbit⟩ := PortInterface.replyChar_bit hb hr hv hn h1 h2
    rw [PortInterface.txMark, PortInterface.onLine_of_noLastChar hl, hc]
    exact hbit

end Sys2Proof.Machine
end
